-- ==== Sys2Proof/Word.lean ====
section
/-! DEFINITION. The value types of the arcfour CORE (00_scope.md R11, R12; 10_state.md R20).

No value of the CORE is signed. `a +8 b` of R12 is `a + b` on `Byte`, which wraps mod 256, and `a ^ b` is `a ^^^ b`. -/

namespace Sys2Proof

/-- A byte: S-box entry, key byte, data byte, index (00_scope.md R7 `BYTE`). -/
abbrev Byte := BitVec 8

/-- A register word of the port (00_scope.md R7 `BUS_W`). -/
abbrev Word := BitVec 32

/-- An offset into the 4096-byte register window, 0x000 to 0xFFF (00_scope.md R7 `WIN_SIZE`). -/
abbrev Offset := BitVec 12

/-- An array of exactly 256 bytes: the S-box and the key buffer (10_state.md R21, R24). -/
abbrev Table := Vector Byte 256

end Sys2Proof
end

