-- ==== Sys2Proof/Syntax.lean ====
section
/-! DEFINITION. The six commands of the CORE, one constructor per row of spec/opcode_table.json (30_encoding.md R83).

An operand is one byte (R82), and its type admits nothing else. -/

namespace Sys2Proof

/-- A command word's meaning as syntax (30_encoding.md R83, R87). -/
inductive Instr where
  /-- NOP (43_control.md R160). -/
  | nop
  /-- CLR (43_control.md R161). -/
  | clr
  /-- KEYB b, b the next key byte (40_key_schedule.md R101). -/
  | keyb (b : Byte)
  /-- KSA (40_key_schedule.md R103). -/
  | ksa
  /-- GEN (41_keystream.md R123). -/
  | gen
  /-- XOR m, m the next message byte (42_combine.md R141). -/
  | xor (m : Byte)
  deriving DecidableEq, Repr

end Sys2Proof
end

