-- ==== Sys2Proof/WellFormed.lean ====
section
/-! DEFINITION. Which command words are legal, one check per rule (30_encoding.md R84, R85, R86).

The checks are written over masks of the word, apart from the decoder's fields.
Every value of `Instr` is well formed by its type: an operand is one byte (R82). -/

namespace Sys2Proof

/-- R84: RSVD, bits 31:12, is zero. -/
def reservedBitsZero (w : Word) : Bool := w &&& 0xFFFFF000#32 == 0#32

/-- R86: OPC, bits 11:8, is one of 0x0 to 0x5. -/
def opcodeDefined (w : Word) : Bool := (w &&& 0x00000F00#32) >>> 8 ≤ 5#32

/-- R85: OPND, bits 7:0, is zero unless OPC is 0x2 (KEYB) or 0x5 (XOR), the two commands with an operand. -/
def operandAllowed (w : Word) : Bool :=
  w &&& 0x000000FF#32 == 0#32 || (w &&& 0x00000F00#32) == 0x00000200#32 || (w &&& 0x00000F00#32) == 0x00000500#32

/-- A legal command word: it passes the three checks (30_encoding.md R84 to R86). -/
def legalWord (w : Word) : Bool := reservedBitsZero w && opcodeDefined w && operandAllowed w

end Sys2Proof
end

