-- ==== Sys2Proof/Decode.lean ====
section
/-! DEFINITION. The decoder, total on all words, and the encoder (30_encoding.md R80 to R87). -/

namespace Sys2Proof

/-- Why a word is illegal; the hardware records CMDERR in each case and tells no cause (30_encoding.md R87). -/
inductive DecodeError where
  /-- `word[31:12] ≠ 0` (R84). -/
  | reservedBits
  /-- OPC in 0x6..0xF (R86). -/
  | reservedOpcode
  /-- `OPND ≠ 0` on a command without an operand (R85). -/
  | operandNotZero
  deriving DecidableEq, Repr

/-- RSVD = `word[31:12]` (R80). -/
def fieldRsvd (w : Word) : BitVec 20 := w.extractLsb' 12 20

/-- OPC = `word[11:8]` (R81). -/
def fieldOpc (w : Word) : BitVec 4 := w.extractLsb' 8 4

/-- OPND = `word[7:0]`, an unsigned byte (R82). -/
def fieldOpnd (w : Word) : Byte := w.extractLsb' 0 8

/-- A command without an operand: illegal unless `OPND = 0` (R85). -/
def withoutOperand (w : Word) (i : Instr) : Except DecodeError Instr :=
  if fieldOpnd w = 0#8 then .ok i else .error .operandNotZero

/-- Decode (R87). Reserved bits are looked at first, then OPC, then OPND. -/
def decode (w : Word) : Except DecodeError Instr :=
  if fieldRsvd w ≠ 0#20 then .error .reservedBits
  else match (fieldOpc w).toNat with
    | 0 => withoutOperand w .nop
    | 1 => withoutOperand w .clr
    | 2 => .ok (.keyb (fieldOpnd w))
    | 3 => withoutOperand w .ksa
    | 4 => withoutOperand w .gen
    | 5 => .ok (.xor (fieldOpnd w))
    | _ => .error .reservedOpcode

/-- The OPC of each command (R83). -/
def opcodeOf : Instr → BitVec 4
  | .nop => 0x0#4
  | .clr => 0x1#4
  | .keyb _ => 0x2#4
  | .ksa => 0x3#4
  | .gen => 0x4#4
  | .xor _ => 0x5#4

/-- The OPND of each command, 0 where it has none (R80, R83). -/
def operandOf : Instr → Byte
  | .keyb b => b
  | .xor m => m
  | .nop => 0#8
  | .clr => 0#8
  | .ksa => 0#8
  | .gen => 0#8

/-- `word = zext_32(OPC) << 8 | zext_32(OPND)` (R83). -/
def encode (i : Instr) : Word := (opcodeOf i).setWidth 32 <<< 8 ||| (operandOf i).setWidth 32

/-- The instruction the decoder reads from the low `nbits` bits of `w`, every higher bit 0.
A command is one 32-bit word (R88), so bits that do not fit it are refused (log 16). -/
def decodeTableWord (nbits w : Nat) : Option Instr :=
  if w % 2 ^ nbits < 2 ^ 32 then
    match decode (BitVec.ofNat 32 (w % 2 ^ nbits)) with
    | .ok i => some i
    | .error _ => none
  else none

end Sys2Proof
end

