-- ==== Sys2Proof/Config.lean ====
section
/-! DEFINITION. What an implementation or a platform fixes, and the free values.

The fixed parameters of 00_scope.md R7 are in the types of Word.lean and in the rules that use them.
The OPEN ones stand here as constants without a body: no proof can see a value of one. -/

namespace Sys2Proof

/-- Polarity of the reset input, a part of `RST_KIND` (92_eei_decisions.md D21). -/
inductive ResetPolarity where
  | activeHigh
  | activeLow
  deriving DecidableEq, Repr, Inhabited

/-- `RST_KIND`: polarity, synchrony and shortest assertion of reset, in an implementation's own unit of time
(70_reset_and_hazards.md R210, 92_eei_decisions.md D21). -/
structure ResetKind where
  polarity : ResetPolarity
  synchronous : Bool
  minAssertion : Nat
  deriving DecidableEq, Repr, Inhabited

/-- `RC4_BASE` in units of 4096 bytes (00_scope.md R7; OPEN; log 9). -/
opaque Config.rc4BasePage : Nat

/-- `RC4_BASE`, the system address of offset 0x000: a multiple of 4096 (00_scope.md R7, 20_memory.md R50; log 9). -/
def Config.rc4Base : Nat := 4096 * Config.rc4BasePage

/-- `LAT_CMD(op)`: finite and OPEN; no rule depends on it and the model has no time
(00_scope.md R7, 70_reset_and_hazards.md R219; log 10). -/
opaque Config.latCmd : Instr → Nat

/-- `RST_KIND`, on which no rule depends (92_eei_decisions.md D21; log 10). -/
opaque Config.rstKind : ResetKind

/-- FREE VALUE: the contents of S after reset event number n of a run
(10_state.md R41; 93_implementation_defined.md U2, U13; log 7). -/
opaque Config.sboxAfterReset : Nat → Table

/-- FREE VALUE: the contents of K after reset event number n of a run
(10_state.md R41; 93_implementation_defined.md U3; log 7). -/
opaque Config.keyAfterReset : Nat → Table

end Sys2Proof
end

