-- ==== Sys2Proof/Machine/State.lean ====
section
/-! DEFINITION. The state of one CORE (10_state.md R20), the host's accesses, the port's answers, and reset.

The first twelve fields of `State` are the hardware's tuple and all of it.
The last three are the model's own: the host agent's coming events, the port's last answer and the counter
of reset events (logs 3, 4, 7). -/

namespace Sys2Proof.Machine

/-- Size of a host access; only `word` is accepted (20_memory.md R52). -/
inductive Size where
  | byte
  | half
  | word
  | dword
  deriving DecidableEq, Repr

/-- One access of the host to the window, at an offset (00_scope.md R15, 20_memory.md R50). -/
inductive Access where
  | read (off : Offset) (size : Size)
  /-- `data` is the 32 bits the port carries; only a word write is performed (20_memory.md R52; log 15). -/
  | write (off : Offset) (size : Size) (data : Word)
  deriving DecidableEq, Repr

/-- What the outside world does to the CORE, one entry per model step (00_scope.md R9, 70_reset_and_hazards.md R210). -/
inductive HostEvent where
  /-- An access that the port accepts and completes. -/
  | access (a : Access)
  /-- Reset is asserted between two accesses and released. -/
  | reset
  /-- Reset is asserted while `a` is held on the port and released: `a` is lost (70_reset_and_hazards.md R210; log 8). -/
  | resetHolding (a : Access)
  deriving DecidableEq, Repr

/-- The port's answer to an access (20_memory.md R55, R57, R59 to R62). -/
inductive Response where
  /-- A read that completed with this word. -/
  | data (w : Word)
  /-- A write to CMD that completed: its command has been performed. -/
  | written
  /-- The error response; it yields no value and carries no cause (20_memory.md R55, 60_exceptions.md R185). -/
  | busError
  deriving DecidableEq, Repr

/-- The three errors that STATUS records (60_exceptions.md R180). -/
inductive CmdError where
  /-- InvalidKey, flag KEYERR, code 2. -/
  | invalidKey
  /-- Sequence error, flag SEQERR, code 3. -/
  | sequence
  /-- Illegal command, flag CMDERR, code 4. -/
  | illegalCommand
  deriving DecidableEq, Repr

/-- Reasons for the machine to stop: there are none, so nothing raises one and the type is empty.
Every error of the CORE is recorded or answered and the machine goes on (60_exceptions.md R185, R188;
70_reset_and_hazards.md R220), so this is safe (log 5). -/
inductive Fault where
  deriving DecidableEq, Repr

/-- Reasons for the model to have no meaning. -/
inductive Refusal where
  /-- Raised by an arm of `exec` for an instruction without a meaning; no arm raises it in this model. Safe. -/
  | notModelled (mnemonic : String)
  deriving DecidableEq, Repr

/-- The whole state: plain data. -/
structure State where
  /-- `S[0..255]`, the S-box (10_state.md R21). -/
  sbox : Table
  /-- `K[0..255]`, the key buffer (10_state.md R24). -/
  key : Table
  /-- `KEYLEN`, number of key bytes held, 0..256 (10_state.md R25; log 11). -/
  keylen : BitVec 9
  /-- `I`, PRGA index i (10_state.md R27). -/
  i : Byte
  /-- `J`, PRGA index j (10_state.md R28). -/
  j : Byte
  /-- `DOUT`, the last result byte (10_state.md R29). -/
  dout : Byte
  /-- `SVALID`: S holds a scheduled permutation (10_state.md R30). -/
  svalid : Bool
  /-- `DVALID`: DOUT holds the result of the last command (10_state.md R31). -/
  dvalid : Bool
  /-- `KEYERR`, sticky InvalidKey flag (10_state.md R32). -/
  keyerr : Bool
  /-- `SEQERR`, sticky sequence-error flag (10_state.md R33). -/
  seqerr : Bool
  /-- `CMDERR`, sticky illegal-command flag (10_state.md R34). -/
  cmderr : Bool
  /-- `KOVF`, sticky key-overflow flag (10_state.md R35). -/
  kovf : Bool
  /-- The host's events still to come, in the order the port accepts them (log 3). -/
  pending : List HostEvent
  /-- The port's answer to the last access, if one completed since reset (log 4). -/
  response : Option Response
  /-- Number of reset events so far: what the free draws of S and K are applied to (log 7). -/
  resets : Nat
  deriving DecidableEq, Repr

/-- The machine right after reset (10_state.md R41). S and K are unspecified there: all zero is the model's choice
(DESIGN CHOICE, unsafe; logs 1 and 2). No host event is pending and no access has been answered (logs 3, 4). -/
def State.reset : State where
  sbox := Vector.replicate 256 0#8
  key := Vector.replicate 256 0#8
  keylen := 0#9
  i := 0#8
  j := 0#8
  dout := 0#8
  svalid := false
  dvalid := false
  keyerr := false
  seqerr := false
  cmderr := false
  kovf := false
  pending := []
  response := none
  resets := 0

end Sys2Proof.Machine
end

