-- ==== Sys2Proof/Machine/Flags.lean ====
section
/-! DEFINITION. The STATUS flags: which one an error sets, and the STATUS word (20_memory.md R59, 60_exceptions.md R180). -/

namespace Sys2Proof.Machine

/-- Set the sticky flag of an error; no other flag changes (60_exceptions.md R180, R181). -/
def setErrorFlag (e : CmdError) (s : State) : State :=
  match e with
  | .invalidKey => { s with keyerr := true }
  | .sequence => { s with seqerr := true }
  | .illegalCommand => { s with cmderr := true }

/-- The code of an error, which is the position of its flag in STATUS (60_exceptions.md R180, 20_memory.md R59). -/
def errorCode : CmdError → Nat
  | .invalidKey => 2
  | .sequence => 3
  | .illegalCommand => 4

/-- A flag as a 32-bit word, 0 or 1. -/
def flagWord (b : Bool) : Word := (BitVec.ofBool b).setWidth 32

/-- STATUS: `zext_32(KEYLEN) << 16 | KOVF << 5 | CMDERR << 4 | SEQERR << 3 | KEYERR << 2 | DVALID << 1 | SVALID`
(20_memory.md R59). -/
def statusWord (s : State) : Word :=
  s.keylen.setWidth 32 <<< 16 ||| flagWord s.kovf <<< 5 ||| flagWord s.cmderr <<< 4 ||| flagWord s.seqerr <<< 3
    ||| flagWord s.keyerr <<< 2 ||| flagWord s.dvalid <<< 1 ||| flagWord s.svalid

end Sys2Proof.Machine
end

