-- ==== Sys2Proof/Machine/Ops.lean ====
section
/-! DEFINITION. The named operations over the state that the commands share: the tables S and K, the swap,
the key schedule's loop, the PRGA step, recording an error, and reset. -/

namespace Sys2Proof.Machine

/-- `T[k]` (00_scope.md R13). -/
def readTable (t : Table) (k : Byte) : Byte := t[k.toNat]'k.isLt

/-- `T[k] <- v` (00_scope.md R13). -/
def writeTable (t : Table) (k v : Byte) : Table := t.set k.toNat v k.isLt

/-- `swap(a, b)`: both entries are read before either is written (00_scope.md R14). -/
def swapTable (t : Table) (a b : Byte) : Table :=
  let ta := readTable t a
  let tb := readTable t b
  writeTable (writeTable t a tb) b ta

/-- The identity table, `S[k] = k` for every k (40_key_schedule.md R103). -/
def identityTable : Table := ⟨((List.range 256).map (BitVec.ofNat 8)).toArray, by simp⟩

/-- `K[n]` for a key position n < 256 (00_scope.md R13). -/
def keyByte (s : State) (n : Nat) : Byte := readTable s.key (BitVec.ofNat 8 n)

/-- `K[KEYLEN] <- b; KEYLEN <- KEYLEN + 1`, for KEYLEN < 256 (40_key_schedule.md R101). -/
def appendKey (b : Byte) (s : State) : State :=
  { s with key := writeTable s.key (s.keylen.setWidth 8) b, keylen := s.keylen + 1#9 }

/-- One iteration of the KSA's loop on its running index j and S, for loop index `n`:
`j <- j +8 S[i] +8 key(i); swap(i, j)` (40_key_schedule.md R103). -/
def ksaRound (keyAt : Nat → Byte) (acc : Byte × Table) (n : Nat) : Byte × Table :=
  let i := BitVec.ofNat 8 n
  let j := acc.1 + readTable acc.2 i + keyAt n
  (j, swapTable acc.2 i j)

/-- The loop's `(j, S)` after its first n iterations, in order from the identity with j = 0 (40_key_schedule.md R103). -/
def ksaRounds (keyAt : Nat → Byte) : Nat → Byte × Table
  | 0 => (0#8, identityTable)
  | n + 1 => ksaRound keyAt (ksaRounds keyAt n) n

/-- The KSA's table: all 256 iterations (40_key_schedule.md R103). -/
def ksaTable (keyAt : Nat → Byte) : Table := (ksaRounds keyAt 256).2

/-- What a successful KSA leaves: the scheduled table, and the generator and DOUT at their start
(10_state.md R27 to R31, 40_key_schedule.md R103). -/
def startKeystream (t : Table) (s : State) : State :=
  { s with sbox := t, i := 0#8, j := 0#8, dout := 0#8, svalid := true, dvalid := false }

/-- `SVALID <- 0` (40_key_schedule.md R103). -/
def clearSvalid (s : State) : State := { s with svalid := false }

/-- `KOVF <- 1`: the key buffer was full (40_key_schedule.md R101). -/
def setOverflow (s : State) : State := { s with kovf := true }

/-- `prga_step`: advance I and J, swap, and return the keystream byte read after the swap (41_keystream.md R120, R121). -/
def prgaStep (s : State) : State × Byte :=
  let i := s.i + 1#8
  let j := s.j + readTable s.sbox i
  let t := swapTable s.sbox i j
  ({ s with i := i, j := j, sbox := t }, readTable t (readTable t i + readTable t j))

/-- `DOUT <- b; DVALID <- 1`, the end of a successful GEN or XOR (10_state.md R29, R31). -/
def latchResult (b : Byte) (s : State) : State := { s with dout := b, dvalid := true }

/-- `DVALID <- 0`, what every command but a successful GEN or XOR does (10_state.md R31). -/
def clearDvalid (s : State) : State := { s with dvalid := false }

/-- `raise CmdError(E)`: set E's sticky flag and `DVALID <- 0`, nothing else (00_scope.md R15, 60_exceptions.md R181).
This is the CORE's only way to record an error. -/
def raiseCmdError (e : CmdError) (s : State) : State := clearDvalid (setErrorFlag e s)

/-- CLR's writes: everything but the contents of S and K (43_control.md R161). -/
def clearState (s : State) : State :=
  { s with
    keylen := 0#9, i := 0#8, j := 0#8, dout := 0#8, svalid := false, dvalid := false,
    keyerr := false, seqerr := false, cmderr := false, kovf := false }

/-- Reset asserted and released during a run: the values of 10_state.md R41, S and K a free draw
(70_reset_and_hazards.md R210; 93_implementation_defined.md U2, U3, U13; log 7). No access has been answered since. -/
def releaseReset (s : State) : State :=
  { clearState s with
    sbox := Config.sboxAfterReset s.resets, key := Config.keyAfterReset s.resets,
    response := none, resets := s.resets + 1 }

end Sys2Proof.Machine
end

