-- ==== Sys2Proof/Machine/Operands.lean ====
section
/-! DEFINITION. The register window: which register an access selects, when the port refuses it, and what a read
answers (20_memory.md R50 to R62). -/

namespace Sys2Proof.Machine

/-- The readable registers of the window (20_memory.md R51). -/
inductive ReadReg where
  | status
  | dout
  | prgaIdx
  | sbox (k : Byte)
  deriving DecidableEq, Repr

/-- The mapped registers of the window (20_memory.md R51). -/
inductive Reg where
  /-- CMD, write-only. -/
  | cmd
  /-- A read-only register. -/
  | readable (r : ReadReg)
  deriving DecidableEq, Repr

/-- Why the port refuses an access. The error response carries no cause (20_memory.md R55). -/
inductive BusCause where
  /-- The access is not 4 bytes (20_memory.md R52). -/
  | size
  /-- `off[1:0] ≠ 0b00` (20_memory.md R52). -/
  | alignment
  /-- No register at this offset (20_memory.md R53). -/
  | unmapped
  /-- A read of CMD or a write to a read-only register (20_memory.md R54). -/
  | direction
  deriving DecidableEq, Repr

/-- Offset of CMD. -/
def cmdOffset : Offset := 0x000#12

/-- Offset of a readable register (20_memory.md R51). -/
def offsetOf : ReadReg → Offset
  | .status => 0x004#12
  | .dout => 0x008#12
  | .prgaIdx => 0x00C#12
  | .sbox k => 0x400#12 + k.setWidth 12 <<< 2

/-- The register at an aligned offset, if one is mapped there (20_memory.md R51, R53).
SBOX[k] is at 0x400 + 4·k, so k is bits 9:2 of the offset. -/
def registerAt (off : Offset) : Option Reg :=
  if off = 0x000#12 then some .cmd
  else if off = 0x004#12 then some (.readable .status)
  else if off = 0x008#12 then some (.readable .dout)
  else if off = 0x00C#12 then some (.readable .prgaIdx)
  else if off.extractLsb' 10 2 = 0b01#2 then some (.readable (.sbox (off.extractLsb' 2 8)))
  else none

/-- The port's checks on size, alignment and offset (20_memory.md R52, R53). -/
def selectRegister (off : Offset) (size : Size) : Except BusCause Reg :=
  if size ≠ .word then .error .size
  else if off.extractLsb' 0 2 ≠ 0#2 then .error .alignment
  else match registerAt off with
    | none => .error .unmapped
    | some r => .ok r

/-- The register a read selects, or why it is refused (20_memory.md R52 to R54). -/
def selectRead (off : Offset) (size : Size) : Except BusCause ReadReg :=
  match selectRegister off size with
  | .error c => .error c
  | .ok .cmd => .error .direction
  | .ok (.readable r) => .ok r

/-- Whether a write is one to CMD, or why it is refused (20_memory.md R52 to R54). -/
def selectWrite (off : Offset) (size : Size) : Except BusCause Unit :=
  match selectRegister off size with
  | .error c => .error c
  | .ok .cmd => .ok ()
  | .ok (.readable _) => .error .direction

/-- What a read of a register answers (20_memory.md R59 to R62). Reserved bits read 0, and the S-box window reads 0
while SVALID = 0. -/
def readRegister (r : ReadReg) (s : State) : Word :=
  match r with
  | .status => statusWord s
  | .dout => s.dout.setWidth 32
  | .prgaIdx => s.j.setWidth 32 <<< 8 ||| s.i.setWidth 32
  | .sbox k => if s.svalid then (readTable s.sbox k).setWidth 32 else 0#32

/-- The offset a system address has in the window at `RC4_BASE`, if it lies in it (20_memory.md R50; log 9). -/
def offsetOfAddress (addr : Nat) : Option Offset :=
  if Config.rc4Base ≤ addr ∧ addr < Config.rc4Base + 4096 then some (BitVec.ofNat 12 (addr - Config.rc4Base)) else none

/-- `MemRead(addr, size)` as an event at the port, if the address is in the window (00_scope.md R15). -/
def memRead (addr : Nat) (size : Size) : Option HostEvent :=
  (offsetOfAddress addr).map fun off => .access (.read off size)

/-- `MemWrite(addr, size, v)` as an event at the port, if the address is in the window (00_scope.md R15). -/
def memWrite (addr : Nat) (size : Size) (v : Word) : Option HostEvent :=
  (offsetOfAddress addr).map fun off => .access (.write off size v)

end Sys2Proof.Machine
end

