-- ==== Sys2Proof/Machine/Combine.lean ====
section
/-! DEFINITION. The combiner: XOR (42_combine.md R141). -/

namespace Sys2Proof.Machine

/-- XOR m: one PRGA step and `m ^ ks` to DOUT, or a sequence error when no S-box is scheduled (42_combine.md R141). -/
def execXor (m : Byte) (s : State) : Host.Outcome State Fault Refusal :=
  if s.svalid then
    let (s', ks) := prgaStep s
    .next (latchResult (m ^^^ ks) s')
  else .next (raiseCmdError .sequence s)

end Sys2Proof.Machine
end

