-- ==== Sys2Proof/Machine/Control.lean ====
section
/-! DEFINITION. The control commands NOP and CLR (43_control.md R160, R161). -/

namespace Sys2Proof.Machine

/-- NOP: `DVALID <- 0` (43_control.md R160). -/
def execNop (s : State) : Host.Outcome State Fault Refusal := .next (clearDvalid s)

/-- CLR: the fresh state; S and K keep their contents, which nothing can observe now (43_control.md R161). -/
def execClr (s : State) : Host.Outcome State Fault Refusal := .next (clearState s)

end Sys2Proof.Machine
end

