-- ==== Sys2Proof/Machine/KeySchedule.lean ====
section
/-! DEFINITION. Key loading and key scheduling: KEYB and KSA (40_key_schedule.md R101, R103). -/

namespace Sys2Proof.Machine

/-- KEYB b: append b to the key, or discard it and set KOVF when the buffer is full (40_key_schedule.md R101). -/
def execKeyb (b : Byte) (s : State) : Host.Outcome State Fault Refusal :=
  if s.keylen.toNat < 256 then .next (clearDvalid (appendKey b s)) else .next (clearDvalid (setOverflow s))

/-- KSA: InvalidKey on an empty key, else schedule the held key with `key[i mod L]` (40_key_schedule.md R103). -/
def execKsa (s : State) : Host.Outcome State Fault Refusal :=
  if s.keylen = 0#9 then .next (raiseCmdError .invalidKey (clearSvalid s))
  else .next (startKeystream (ksaTable fun n => keyByte s (n % s.keylen.toNat)) s)

end Sys2Proof.Machine
end

