-- ==== Sys2Proof/Machine/Keystream.lean ====
section
/-! DEFINITION. Keystream generation: GEN (41_keystream.md R123). -/

namespace Sys2Proof.Machine

/-- GEN: one PRGA step and its byte to DOUT, or a sequence error when no S-box is scheduled (41_keystream.md R123). -/
def execGen (s : State) : Host.Outcome State Fault Refusal :=
  if s.svalid then
    let (s', ks) := prgaStep s
    .next (latchResult ks s')
  else .next (raiseCmdError .sequence s)

end Sys2Proof.Machine
end

