-- ==== Sys2Proof/Machine/Dispatch.lean ====
section
/-! DEFINITION. The command a decoded word performs, one arm per constructor (20_memory.md R57). -/

namespace Sys2Proof.Machine

def exec (i : Instr) (s : State) : Host.Outcome State Fault Refusal :=
  match i with
  | .nop => Sys2Proof.Machine.execNop s
  | .clr => Sys2Proof.Machine.execClr s
  | .keyb b => Sys2Proof.Machine.execKeyb b s
  | .ksa => Sys2Proof.Machine.execKsa s
  | .gen => Sys2Proof.Machine.execGen s
  | .xor m => Sys2Proof.Machine.execXor m s

end Sys2Proof.Machine
end

