-- ==== Sys2Proof/Machine/Port.lean ====
section
/-! DEFINITION. The port: what a host access or a reset does (20_memory.md R55 to R57, 60_exceptions.md R189,
70_reset_and_hazards.md R210). -/

namespace Sys2Proof.Machine

/-- The event the port takes next is gone from the host's list. -/
def withPending (rest : List HostEvent) (s : State) : State := { s with pending := rest }

/-- The port's answer to the access; no other state changes. -/
def withResponse (r : Response) (s : State) : State := { s with response := some r }

/-- A completed command's outcome with the port's answer to its write. -/
def answerWrite : Host.Outcome State Fault Refusal → Host.Outcome State Fault Refusal
  | .next s => .next (withResponse .written s)
  | .fault r => .fault r
  | .refused r => .refused r

/-- A word written to CMD: the decoded command, or the illegal-command error
(20_memory.md R57, 30_encoding.md R87, 60_exceptions.md R184). -/
def performWord (w : Word) (s : State) : Host.Outcome State Fault Refusal :=
  match decode w with
  | .ok i => exec i s
  | .error _ => .next (raiseCmdError .illegalCommand s)

/-- One access. The port's checks come first, then decode, then the command's own check (60_exceptions.md R189).
A refused access is answered with a bus error and changes no state of R20 (20_memory.md R55; log 5). -/
def serveAccess (a : Access) (s : State) : Host.Outcome State Fault Refusal :=
  match a with
  | .read off size =>
    match selectRead off size with
    | .ok r => .next (withResponse (.data (readRegister r s)) s)
    | .error _ => .next (withResponse .busError s)
  | .write off size data =>
    match selectWrite off size with
    | .ok _ => answerWrite (performWord data s)
    | .error _ => .next (withResponse .busError s)

/-- One event of the outside world. A reset that finds an access held loses it (70_reset_and_hazards.md R210; log 8). -/
def serveEvent (e : HostEvent) (s : State) : Host.Outcome State Fault Refusal :=
  match e with
  | .access a => serveAccess a s
  | .reset => .next (releaseReset s)
  | .resetHolding _ => .next (releaseReset s)

/-- The next event of the host's list. With none pending the state holds (60_exceptions.md R198; log 6). -/
def serveNext (s : State) : Host.Outcome State Fault Refusal :=
  match s.pending with
  | [] => .next s
  | e :: rest => serveEvent e (withPending rest s)

/-- The host's write that carries the command word whose low `nbits` bits are those of `w`, higher bits 0 (log 16). -/
def commandWrite (nbits w : Nat) : HostEvent := .access (.write cmdOffset .word (BitVec.ofNat 32 (w % 2 ^ nbits)))

end Sys2Proof.Machine
end

