-- ==== Sys2Proof/Machine/Step.lean ====
section
/-! DEFINITION. One step of the machine: the host's next event is served (00_scope.md R9). -/

namespace Sys2Proof.Machine

/-- One completed host access or one reset; with no event pending the state holds (00_scope.md R9; logs 3, 6). -/
def step (s : State) : Host.Outcome State Fault Refusal := serveNext s

/-- `s` with the host about to write the command word to CMD, ahead of whatever else it has pending:
the CORE fetches nothing, its next command is what the host writes next (10_state.md R40; log 3). -/
def State.withFetchWord (s : State) (nbits w : Nat) : State := withPending (commandWrite nbits w :: s.pending) s

end Sys2Proof.Machine
end

