-- ==== Sys2Proof/Machine/Asm.lean ====
section
/-! DEFINITION. The assembler's access lines and pseudo-instructions (30_encoding.md R89, R90).

A line is one host access, so it has no meaning of its own beside that access. -/

namespace Sys2Proof.Machine

/-- An access line (30_encoding.md R89); operands are the numbers as written. -/
inductive AsmLine where
  | nop
  | clr
  | keyb (b : Nat)
  | ksa
  | gen
  | xor (b : Nat)
  /-- `.word w`, any 32-bit word. -/
  | word (w : Nat)
  | rdStatus
  | rdDout
  | rdPrgaIdx
  | rdSbox (k : Nat)
  deriving DecidableEq, Repr

/-- A pseudo-instruction (30_encoding.md R90); a text operand is the list of its characters' codes. -/
inductive AsmPseudo where
  | setkey (bs : List Nat)
  | resched
  | enc (bs : List Nat)
  | ks (n : Nat)
  deriving DecidableEq, Repr

/-- One line of a program. -/
inductive AsmStmt where
  | line (l : AsmLine)
  | pseudo (p : AsmPseudo)
  deriving DecidableEq, Repr

/-- An operand byte; a number outside 0..255 is an assembly error (30_encoding.md R89). -/
def asmByte (b : Nat) : Option Byte := if b < 256 then some (BitVec.ofNat 8 b) else none

/-- `MemWrite(RC4_BASE + 0x000, 4, w)` (30_encoding.md R89). -/
def cmdWrite (w : Word) : Access := .write cmdOffset .word w

/-- `MemRead` of a register's offset (30_encoding.md R89). -/
def regRead (r : ReadReg) : Access := .read (offsetOf r) .word

/-- The access of a line, or none for an assembly error (30_encoding.md R89). -/
def assembleLine : AsmLine → Option Access
  | .nop => some (cmdWrite 0x00000000#32)
  | .clr => some (cmdWrite 0x00000100#32)
  | .keyb b => (asmByte b).map fun v => cmdWrite (0x00000200#32 + v.setWidth 32)
  | .ksa => some (cmdWrite 0x00000300#32)
  | .gen => some (cmdWrite 0x00000400#32)
  | .xor b => (asmByte b).map fun v => cmdWrite (0x00000500#32 + v.setWidth 32)
  | .word w => if w < 2 ^ 32 then some (cmdWrite (BitVec.ofNat 32 w)) else none
  | .rdStatus => some (regRead .status)
  | .rdDout => some (regRead .dout)
  | .rdPrgaIdx => some (regRead .prgaIdx)
  | .rdSbox k => (asmByte k).map fun v => regRead (.sbox v)

/-- The lines of `ENC` over one byte after another (30_encoding.md R90). -/
def expandEnc : List Nat → List AsmLine
  | [] => []
  | b :: bs => .xor b :: .rdDout :: expandEnc bs

/-- The lines of `KS n` (30_encoding.md R90). -/
def expandKs : Nat → List AsmLine
  | 0 => []
  | n + 1 => .gen :: .rdDout :: expandKs n

/-- A pseudo-instruction is exactly its expansion (30_encoding.md R90). -/
def expandPseudo : AsmPseudo → List AsmLine
  | .setkey bs => .clr :: (bs.map .keyb ++ [.ksa])
  | .resched => [.ksa]
  | .enc bs => expandEnc bs
  | .ks n => expandKs n

/-- The access lines of a statement. -/
def linesOf : AsmStmt → List AsmLine
  | .line l => [l]
  | .pseudo p => expandPseudo p

/-- The accesses of lines in order, or none if one of them is an assembly error. -/
def assembleLines : List AsmLine → Option (List Access)
  | [] => some []
  | l :: ls =>
    match assembleLine l, assembleLines ls with
    | some a, some as => some (a :: as)
    | _, _ => none

/-- The accesses of a program (30_encoding.md R89, R90). -/
def assemble (p : List AsmStmt) : Option (List Access) := assembleLines (p.flatMap linesOf)

end Sys2Proof.Machine
end

