-- ==== Sys2Proof/Machine/AsmText.lean ====
section
/-! DEFINITION. The assembler's text (30_encoding.md R89, R90): one line of characters to a statement, or none for an
assembly error (log 17). -/

namespace Sys2Proof.Machine

/-- A token of a line. -/
inductive AsmToken where
  /-- A run of characters that are no separator: a name or a number. -/
  | word (cs : List Char)
  /-- A character in single quotes. -/
  | char (c : Char)
  /-- A text in double quotes. -/
  | text (cs : List Char)
  | comma
  | bracketOpen
  | bracketClose
  deriving DecidableEq, Repr

/-- Where the lexer stands in a line; lists of characters read so far are reversed. -/
inductive LexMode where
  | between
  | inWord (cs : List Char)
  | quoteOpen
  | quoteChar (c : Char)
  | inText (cs : List Char)
  | comment
  | bad
  deriving DecidableEq, Repr

/-- The lexer: its mode and the tokens so far, reversed. -/
structure Lexer where
  mode : LexMode
  tokens : List AsmToken
  deriving DecidableEq, Repr

/-- A character met outside quotes and words, by its code: blank, `;`, `,`, `[`, `]`, the two quotes, or any other.
DESIGN CHOICE (log 17): tab (9), carriage return (13) and space (32) are blanks, and each punctuation mark is a token of its
own with or without blanks beside it; R89 is silent on both. -/
def lexOutside (ts : List AsmToken) (c : Char) : Lexer :=
  match c.toNat with
  | 9 | 13 | 32 => ⟨.between, ts⟩
  | 59 => ⟨.comment, ts⟩
  | 44 => ⟨.between, .comma :: ts⟩
  | 91 => ⟨.between, .bracketOpen :: ts⟩
  | 93 => ⟨.between, .bracketClose :: ts⟩
  | 34 => ⟨.inText [], ts⟩
  | 39 => ⟨.quoteOpen, ts⟩
  | _ => ⟨.inWord [c], ts⟩

/-- Whether a character ends a word. -/
def isSeparator (c : Char) : Bool := [9, 13, 32, 59, 44, 91, 93, 34, 39].contains c.toNat

/-- One character of a line. `;` begins a comment that runs to the end of the line (30_encoding.md R89).
DESIGN CHOICE (log 17): inside single or double quotes `;` is the quoted character and begins no comment, on which R89 is
silent. -/
def lexChar (l : Lexer) (c : Char) : Lexer :=
  match l.mode with
  | .between => lexOutside l.tokens c
  | .inWord cs => if isSeparator c then lexOutside (.word cs.reverse :: l.tokens) c else ⟨.inWord (c :: cs), l.tokens⟩
  | .quoteOpen => ⟨.quoteChar c, l.tokens⟩
  | .quoteChar d => if c.toNat = 39 then ⟨.between, .char d :: l.tokens⟩ else ⟨.bad, l.tokens⟩
  | .inText cs => if c.toNat = 34 then ⟨.between, .text cs.reverse :: l.tokens⟩ else ⟨.inText (c :: cs), l.tokens⟩
  | .comment => l
  | .bad => l

/-- The tokens of a line, or none if a quote is left open or malformed. -/
def lexLine (cs : List Char) : Option (List AsmToken) :=
  let l := cs.foldl lexChar ⟨.between, []⟩
  match l.mode with
  | .between | .comment => some l.tokens.reverse
  | .inWord ds => some (.word ds.reverse :: l.tokens).reverse
  | .quoteOpen | .quoteChar _ | .inText _ | .bad => none

/-- The value of a digit, none for any other character; letters of either case are hexadecimal digits. -/
def digitValue (c : Char) : Option Nat :=
  let n := c.toNat
  if 48 ≤ n ∧ n ≤ 57 then some (n - 48)
  else if 65 ≤ n ∧ n ≤ 70 then some (n - 55)
  else if 97 ≤ n ∧ n ≤ 102 then some (n - 87)
  else none

/-- Digits in a base, most significant first, after the value read so far. -/
def digitsValue (base : Nat) : List Char → Nat → Option Nat
  | [], acc => some acc
  | c :: cs, acc =>
    match digitValue c with
    | some d => if d < base then digitsValue base cs (acc * base + d) else none
    | none => none

/-- A number: hexadecimal with `0x`, decimal otherwise (30_encoding.md R89). -/
def numberOf : List Char → Option Nat
  | [] => none
  | '0' :: 'x' :: c :: cs => digitsValue 16 (c :: cs) 0
  | c :: cs => digitsValue 10 (c :: cs) 0

/-- The ASCII code of a character (30_encoding.md R89; log 17). -/
def asciiCode (c : Char) : Option Nat := if c.toNat < 128 then some c.toNat else none

/-- The codes of a text, in order (30_encoding.md R90). -/
def asciiCodes : List Char → Option (List Nat)
  | [] => some []
  | c :: cs =>
    match asciiCode c, asciiCodes cs with
    | some n, some ns => some (n :: ns)
    | _, _ => none

/-- One numeric operand: a number or a character (30_encoding.md R89). -/
def operandValue : AsmToken → Option Nat
  | .word cs => numberOf cs
  | .char c => asciiCode c
  | .text _ | .comma | .bracketOpen | .bracketClose => none

/-- A list `b0, …, bn` of operands after its first one (30_encoding.md R90). -/
def operandTail : List AsmToken → Option (List Nat)
  | [] => some []
  | .comma :: t :: ts =>
    match operandValue t, operandTail ts with
    | some n, some ns => some (n :: ns)
    | _, _ => none
  | _ => none

/-- The bytes of SETKEY or ENC: nothing, one text, or a list of operands (30_encoding.md R90). -/
def operandBytes : List AsmToken → Option (List Nat)
  | [] => some []
  | [.text cs] => asciiCodes cs
  | t :: ts =>
    match operandValue t, operandTail ts with
    | some n, some ns => some (n :: ns)
    | _, _ => none

/-- The lines of 30_encoding.md R89 that have no operand. -/
def bareLine (name : List Char) : Option AsmStmt :=
  if name = ['N', 'O', 'P'] then some (.line .nop)
  else if name = ['C', 'L', 'R'] then some (.line .clr)
  else if name = ['K', 'S', 'A'] then some (.line .ksa)
  else if name = ['G', 'E', 'N'] then some (.line .gen)
  else if name = ['R', 'E', 'S', 'C', 'H', 'E', 'D'] then some (.pseudo .resched)
  else none

/-- The lines with one numeric operand (30_encoding.md R89, R90). -/
def unaryLine (name : List Char) (n : Nat) : Option AsmStmt :=
  if name = ['K', 'E', 'Y', 'B'] then some (.line (.keyb n))
  else if name = ['X', 'O', 'R'] then some (.line (.xor n))
  else if name = ['.', 'w', 'o', 'r', 'd'] then some (.line (.word n))
  else if name = ['K', 'S'] then some (.pseudo (.ks n))
  else none

/-- The register of `RD` (30_encoding.md R89). -/
def rdLine : List AsmToken → Option AsmStmt
  | [.word ['S', 'T', 'A', 'T', 'U', 'S']] => some (.line .rdStatus)
  | [.word ['D', 'O', 'U', 'T']] => some (.line .rdDout)
  | [.word ['P', 'R', 'G', 'A', '_', 'I', 'D', 'X']] => some (.line .rdPrgaIdx)
  | [.word ['S', 'B', 'O', 'X'], .bracketOpen, t, .bracketClose] => (operandValue t).map fun k => .line (.rdSbox k)
  | _ => none

/-- The statement of a line's tokens; a line without one is a blank or comment line, `some none`. -/
def parseTokens : List AsmToken → Option (Option AsmStmt)
  | [] => some none
  | .word name :: ts =>
    if name = ['S', 'E', 'T', 'K', 'E', 'Y'] then (operandBytes ts).map fun bs => some (.pseudo (.setkey bs))
    else if name = ['E', 'N', 'C'] then (operandBytes ts).map fun bs => some (.pseudo (.enc bs))
    else if name = ['R', 'D'] then (rdLine ts).map some
    else match ts with
      | [] => (bareLine name).map some
      | [t] =>
        match operandValue t with
        | some n => (unaryLine name n).map some
        | none => none
      | _ => none
  | _ => none

/-- A line of text (30_encoding.md R89). -/
def parseLine (cs : List Char) : Option (Option AsmStmt) :=
  match lexLine cs with
  | some ts => parseTokens ts
  | none => none

/-- A program's text: its lines in order, blank and comment lines left out (30_encoding.md R89). -/
def parseProgram : List (List Char) → Option (List AsmStmt)
  | [] => some []
  | l :: ls =>
    match parseLine l, parseProgram ls with
    | some none, some p => some p
    | some (some st), some p => some (st :: p)
    | _, _ => none

/-- The accesses of a program's text (30_encoding.md R89, R90). -/
def assembleText (ls : List (List Char)) : Option (List Access) :=
  match parseProgram ls with
  | some p => assemble p
  | none => none

end Sys2Proof.Machine
end

