-- ==== Sys2Proof/Machine/Source.lean ====
section
/-! DEFINITION. The source's three functions on byte sequences, as 40_key_schedule.md R103, 41_keystream.md R120 and
42_combine.md R143 quote them: what the CORE's commands must realise (00_scope.md R10; log 18).

They are written over exact integers with an explicit `mod 256`, apart from the commands' own operations. -/

namespace Sys2Proof.Machine

/-- `(j, S)` of the source's KSA after its first n iterations: `j = (j + S[i] + key[i mod L]) mod 256`, then exchange
`S[i]` and `S[j]` (40_key_schedule.md R103). -/
def sourceKsa (key : List Byte) : Nat → Byte × Table
  | 0 => (0#8, identityTable)
  | n + 1 =>
    let (j, t) := sourceKsa key n
    let i := BitVec.ofNat 8 n
    let j' := BitVec.ofNat 8 ((j.toNat + (readTable t i).toNat + (key.getD (n % key.length) 0#8).toNat) % 256)
    (j', swapTable t i j')

/-- `schedule(key)`; none is InvalidKey, for the empty key (40_key_schedule.md R103). -/
def sourceSchedule (key : List Byte) : Option Table := if key = [] then none else some (sourceKsa key 256).2

/-- The generator's state: an S-box and the indices i, j (41_keystream.md R120). -/
structure SourceGen where
  sbox : Table
  i : Byte
  j : Byte
  deriving DecidableEq, Repr

/-- One output position: `i = (i+1) mod 256; j = (j + S[i]) mod 256; swap S[i] and S[j]; emit S[(S[i] + S[j]) mod 256]`
(41_keystream.md R120). -/
def sourceNext (g : SourceGen) : SourceGen × Byte :=
  let i := BitVec.ofNat 8 ((g.i.toNat + 1) % 256)
  let j := BitVec.ofNat 8 ((g.j.toNat + (readTable g.sbox i).toNat) % 256)
  let t := swapTable g.sbox i j
  let k := BitVec.ofNat 8 (((readTable t i).toNat + (readTable t j).toNat) % 256)
  (⟨t, i, j⟩, readTable t k)

/-- The next n keystream bytes from a generator state. -/
def sourceBytes (g : SourceGen) : Nat → List Byte
  | 0 => []
  | n + 1 => (sourceNext g).2 :: sourceBytes (sourceNext g).1 n

/-- `generate_keystream(sbox, n)`: indices i, j both start at 0 (41_keystream.md R120). -/
def sourceKeystream (t : Table) (n : Nat) : List Byte := sourceBytes ⟨t, 0#8, 0#8⟩ n

/-- `cipher(key, message)`: `output[k] = message[k] XOR keystream[k]`; none is InvalidKey (42_combine.md R143, R144). -/
def sourceCipher (key msg : List Byte) : Option (List Byte) :=
  (sourceSchedule key).map fun t => List.zipWith (fun m ks => m ^^^ ks) msg (sourceKeystream t msg.length)

end Sys2Proof.Machine
end

