-- ==== Sys2Proof/Machine/HostProc.lean ====
section
/-! DEFINITION. The host's procedures, made of port accesses run by `step` (00_scope.md R10, 42_combine.md R145).

`none` means that the machine stopped or that the port answered otherwise than the access expects (log 18). -/

namespace Sys2Proof.Machine

/-- The host issues one access ahead of whatever else it has pending, and the machine makes one step. -/
def portAccess (a : Access) (s : State) : Option State :=
  match step (withPending (.access a :: s.pending) s) with
  | .next t => some t
  | .fault _ => none
  | .refused _ => none

/-- The host writes a command to CMD (30_encoding.md R89). -/
def hostCommand (i : Instr) (s : State) : Option State :=
  match portAccess (.write cmdOffset .word (encode i)) s with
  | some t => if t.response = some .written then some t else none
  | none => none

/-- The host writes commands in order. -/
def hostCommands : List Instr → State → Option State
  | [], s => some s
  | i :: is, s =>
    match hostCommand i s with
    | some t => hostCommands is t
    | none => none

/-- The host reads a register (30_encoding.md R89, `RD`). -/
def hostRead (r : ReadReg) (s : State) : Option (Word × State) :=
  match portAccess (.read (offsetOf r) .word) s with
  | some t =>
    match t.response with
    | some (.data w) => some (w, t)
    | _ => none
  | none => none

/-- `schedule(key)`: CLR, one KEYB per key byte, KSA (00_scope.md R10, 30_encoding.md R90 `SETKEY`). -/
def scheduleCommands (key : List Byte) : List Instr := .clr :: (key.map .keyb ++ [.ksa])

/-- One command and the byte read from DOUT after it (42_combine.md R145). -/
def hostByte (i : Instr) (s : State) : Option (Byte × State) :=
  match hostCommand i s with
  | some t =>
    match hostRead .dout t with
    | some (w, u) => some (w.setWidth 8, u)
    | none => none
  | none => none

/-- Commands in order, DOUT read after each: `ENC` is this over XOR, `KS` over GEN (30_encoding.md R90). -/
def hostBytes : List Instr → State → Option (List Byte × State)
  | [], s => some ([], s)
  | i :: is, s =>
    match hostByte i s with
    | some (b, t) =>
      match hostBytes is t with
      | some (bs, u) => some (b :: bs, u)
      | none => none
    | none => none

/-- `generate_keystream` from the scheduled S-box: n GEN commands (00_scope.md R10). -/
def hostKeystream (n : Nat) (s : State) : Option (List Byte × State) := hostBytes (List.replicate n .gen) s

/-- How procedure R145 ends. -/
inductive CipherResult where
  | bytes (out : List Byte)
  | invalidKey
  deriving DecidableEq, Repr

/-- `cipher(key, message)` of 42_combine.md R145: schedule, check STATUS even for an empty message, then combine. -/
def hostCipher (key msg : List Byte) (s : State) : Option (CipherResult × State) :=
  match hostCommands (scheduleCommands key) s with
  | some t =>
    match hostRead .status t with
    | some (w, u) =>
      if w.getLsbD 2 || !w.getLsbD 0 then some (.invalidKey, u)
      else match hostBytes (msg.map .xor) u with
        | some (out, v) => some (.bytes out, v)
        | none => none
    | none => none
  | none => none

end Sys2Proof.Machine
end

