-- ==== Sys2Proof/Safety.lean ====
section
/-! DEFINITION. The terms that claims are stated in: permutations, the invariants of reachable states, what the port can
observe, and which events leave a running keystream alone. -/

namespace Sys2Proof.Machine

/-- Each value 0..255 occurs exactly once (00_scope.md R17 "permutation"). -/
def IsPermutation (t : Table) : Prop := ∀ v : Byte, ∃ k : Byte, readTable t k = v ∧ ∀ k' : Byte, readTable t k' = v → k' = k

/-- The genuine exchange of 00_scope.md R14, by what it leaves: `t'` is `t` with the entries a and b exchanged. -/
def IsSwap (t : Table) (a b : Byte) (t' : Table) : Prop :=
  readTable t' a = readTable t b ∧ readTable t' b = readTable t a ∧
  ∀ k : Byte, k ≠ a → k ≠ b → readTable t' k = readTable t k

/-- A run of the KSA's loop (40_key_schedule.md R103), given by its tables T 0, …, T 256 and its running indices:
T 0 is the identity, j 0 is 0, and iteration n sets j from the table BEFORE its swap and then swaps entries n and j. -/
def IsSchedule (keyAt : Nat → Byte) (t : Table) : Prop :=
  ∃ (T : Nat → Table) (j : Nat → Byte),
    (∀ k : Byte, readTable (T 0) k = k) ∧ j 0 = 0#8 ∧
    (∀ n, n < 256 → j (n + 1) = j n + readTable (T n) (BitVec.ofNat 8 n) + keyAt n ∧
      IsSwap (T n) (BitVec.ofNat 8 n) (j (n + 1)) (T (n + 1))) ∧
    t = T 256

/-- The key held: `K[0..KEYLEN-1]` (10_state.md R24, R25). -/
def heldKey (s : State) : List Byte := (List.range s.keylen.toNat).map (keyByte s)

/-- The same key is held in both states. -/
def SameKey (s t : State) : Prop :=
  t.keylen = s.keylen ∧ ∀ n, n < s.keylen.toNat → n < 256 → keyByte t n = keyByte s n

/-- The accesses the port refuses: wrong size or alignment (20_memory.md R52), unmapped offset (R53), a read of CMD, or a
write anywhere but CMD (R54). -/
def Refused : Access → Prop
  | .read off size =>
    size ≠ .word ∨ off.toNat % 4 ≠ 0 ∨ off.toNat = 0x000 ∨ (0x010 ≤ off.toNat ∧ off.toNat < 0x400) ∨ 0x800 ≤ off.toNat
  | .write off size _ => size ≠ .word ∨ off.toNat ≠ 0x000

/-- What holds of every reachable state: 10_state.md R25 (KEYLEN ≤ 256), R42 (a) and (b), R22 (S is a permutation while
SVALID = 1), and R31 with R30 (a valid DOUT needs a scheduled S-box). -/
structure State.Inv (s : State) : Prop where
  keylen_le : s.keylen.toNat ≤ 256
  svalid_of_empty : s.keylen = 0#9 → s.svalid = false
  fresh_of_unscheduled : s.svalid = false → s.i = 0#8 ∧ s.j = 0#8 ∧ s.dout = 0#8
  permutation : s.svalid = true → IsPermutation s.sbox
  dvalid_of_unscheduled : s.svalid = false → s.dvalid = false

/-- The tuple of 10_state.md R20 is the same in both states: the hardware's state has not changed. -/
def SameTuple (s t : State) : Prop :=
  t.sbox = s.sbox ∧ t.key = s.key ∧ t.keylen = s.keylen ∧ t.i = s.i ∧ t.j = s.j ∧ t.dout = s.dout ∧
  t.svalid = s.svalid ∧ t.dvalid = s.dvalid ∧ t.keyerr = s.keyerr ∧ t.seqerr = s.seqerr ∧ t.cmderr = s.cmderr ∧
  t.kovf = s.kovf

/-- The tuple of 10_state.md R20 less the four sticky flags KEYERR, SEQERR, CMDERR and KOVF. -/
def SameButStickyFlags (s t : State) : Prop :=
  t.sbox = s.sbox ∧ t.key = s.key ∧ t.keylen = s.keylen ∧ t.i = s.i ∧ t.j = s.j ∧ t.dout = s.dout ∧
  t.svalid = s.svalid ∧ t.dvalid = s.dvalid

/-- The model's own fields are the same in both states. -/
def SameSurroundings (s t : State) : Prop := t.pending = s.pending ∧ t.response = s.response ∧ t.resets = s.resets

/-- Two states that differ at most in what the port cannot observe: S while SVALID = 0, K at positions ≥ KEYLEN
(10_state.md R23, R24), and the model's own counter of resets. The host's coming events and the port's last answer agree. -/
structure ObsEq (s t : State) : Prop where
  sbox : s.svalid = true → t.sbox = s.sbox
  key : ∀ n, n < s.keylen.toNat → n < 256 → keyByte t n = keyByte s n
  keylen : t.keylen = s.keylen
  i : t.i = s.i
  j : t.j = s.j
  dout : t.dout = s.dout
  svalid : t.svalid = s.svalid
  dvalid : t.dvalid = s.dvalid
  keyerr : t.keyerr = s.keyerr
  seqerr : t.seqerr = s.seqerr
  cmderr : t.cmderr = s.cmderr
  kovf : t.kovf = s.kovf
  pending : t.pending = s.pending
  response : t.response = s.response

/-- The command an event performs: the one its word decodes to, for an accepted write to CMD (20_memory.md R57). -/
def commandOf : HostEvent → Option Instr
  | .access (.write off size w) =>
    match selectWrite off size, decode w with
    | .ok _, .ok i => some i
    | _, _ => none
  | .access (.read _ _) => none
  | .reset => none
  | .resetHolding _ => none

/-- Whether an event is an accepted write to CMD, legal word or not (20_memory.md R57). -/
def writesCmd : HostEvent → Bool
  | .access (.write off size _) =>
    match selectWrite off size with
    | .ok _ => true
    | .error _ => false
  | .access (.read _ _) => false
  | .reset => false
  | .resetHolding _ => false

/-- The command is one that runs the generator, GEN or XOR (41_keystream.md R123, 42_combine.md R141). -/
def usesGenerator : Instr → Bool
  | .gen => true
  | .xor _ => true
  | .nop => false
  | .clr => false
  | .keyb _ => false
  | .ksa => false

/-- Whether an event resets the CORE. -/
def isReset : HostEvent → Bool
  | .reset => true
  | .resetHolding _ => true
  | .access _ => false

/-- An event that does not start a new keystream: no reset, no CLR, no KSA (41_keystream.md R124). -/
def keepsKeystream (e : HostEvent) : Bool := !isReset e && commandOf e != some .clr && commandOf e != some .ksa

/-- The number of GEN and XOR commands among events (41_keystream.md R124). -/
def generatorCommands : List HostEvent → Nat
  | [] => 0
  | e :: es =>
    match commandOf e with
    | some i => if usesGenerator i then generatorCommands es + 1 else generatorCommands es
    | none => generatorCommands es

/-- What the port answers to events that the host issues one by one (none for a reset, which answers nothing). -/
def portTrace : List HostEvent → State → Option (List (Option Response))
  | [], _ => some []
  | e :: es, s =>
    match step (withPending (e :: s.pending) s) with
    | .next t => (portTrace es t).map fun rs => t.response :: rs
    | .fault _ => none
    | .refused _ => none

/-- The keystream bytes that events use, in order, on a machine whose host issues them one by one: DOUT after a GEN, and
`m ^ DOUT` after an XOR m (41_keystream.md R124); none if the machine stops. -/
def keystreamUsed : List HostEvent → State → Option (List Byte)
  | [], _ => some []
  | e :: es, s =>
    match step (withPending (e :: s.pending) s) with
    | .next t =>
      match commandOf e with
      | some .gen => (keystreamUsed es t).map fun bs => t.dout :: bs
      | some (.xor m) => (keystreamUsed es t).map fun bs => (m ^^^ t.dout) :: bs
      | _ => keystreamUsed es t
    | .fault _ => none
    | .refused _ => none

end Sys2Proof.Machine
end

