-- ==== Sys2Proof/Certificates/Slice0/Obligations.lean ====
section
/-! DEFINITION. What the provers are asked to prove of the CORE, from the numbered rules of spec/. -/

open Sys2Proof Sys2Proof.Machine

/-! ### Encoding (30_encoding.md) -/

/-- R83, R87: what the encoder writes for a command, the decoder reads back, with every operand. -/
def Obligations.DecodeOfEncodeIsTheCommand : Prop :=
  ∀ i : Instr, decode (encode i) = .ok i ∧ decodeTableWord 32 (encode i).toNat = some i

/-- R83, R87: each legal word is the encoding of the command it decodes to, so no bit of a word is ignored. -/
def Obligations.LegalWordIsTheEncodingOfItsCommand : Prop :=
  ∀ (w : Word) (i : Instr), decode w = .ok i → w = encode i

/-- R83: the rows' match and mask, row by row, the reserved opcodes, and the words of the encoder. -/
def Obligations.OpcodeMapByMatchAndMask : Prop :=
  (∀ w : Word,
    (decode w = .ok .nop ↔ w &&& 0xFFFFFFFF#32 = 0x00000000#32) ∧
    (decode w = .ok .clr ↔ w &&& 0xFFFFFFFF#32 = 0x00000100#32) ∧
    (∀ b : Byte, decode w = .ok (.keyb b) ↔ w &&& 0xFFFFFF00#32 = 0x00000200#32 ∧ b = w.extractLsb' 0 8) ∧
    (decode w = .ok .ksa ↔ w &&& 0xFFFFFFFF#32 = 0x00000300#32) ∧
    (decode w = .ok .gen ↔ w &&& 0xFFFFFFFF#32 = 0x00000400#32) ∧
    (∀ m : Byte, decode w = .ok (.xor m) ↔ w &&& 0xFFFFFF00#32 = 0x00000500#32 ∧ m = w.extractLsb' 0 8) ∧
    (6 ≤ (w.extractLsb' 8 4).toNat → ∀ i, decode w ≠ .ok i)) ∧
  (encode .nop = 0x0#32 <<< 8 ∧ encode .clr = 0x1#32 <<< 8 ∧ encode .ksa = 0x3#32 <<< 8 ∧ encode .gen = 0x4#32 <<< 8 ∧
    ∀ b : Byte, encode (.keyb b) = 0x2#32 <<< 8 ||| b.setWidth 32 ∧ encode (.xor b) = 0x5#32 <<< 8 ||| b.setWidth 32)

/-- R84, R85, R86: a word is illegal exactly when a reserved bit is set, its OPC is reserved, or it has an OPND that its
command does not take. -/
def Obligations.IllegalWordsAreTheReservedOnes : Prop :=
  ∀ w : Word, (∃ e, decode w = .error e) ↔
    w.extractLsb' 12 20 ≠ 0#20 ∨
    (w.extractLsb' 8 4 ∈ [0x0#4, 0x1#4, 0x3#4, 0x4#4] ∧ w.extractLsb' 0 8 ≠ 0#8) ∨
    6 ≤ (w.extractLsb' 8 4).toNat

/-- R87: exactly 516 words are legal. -/
def Obligations.ExactlyFiveHundredSixteenLegalWords : Prop :=
  ∃ l : List Word, l.Nodup ∧ l.length = 516 ∧ ∀ w : Word, w ∈ l ↔ ∃ i, decode w = .ok i

/-- 95_test_vectors.md 2.1: words written out from the encoding, legal and illegal. -/
def Obligations.VectorWordsDecodeAsListed : Prop :=
  decode 0x00000000#32 = .ok .nop ∧ decode 0x00000100#32 = .ok .clr ∧ decode 0x000002FF#32 = .ok (.keyb 0xFF#8) ∧
  decode 0x00000300#32 = .ok .ksa ∧ decode 0x00000400#32 = .ok .gen ∧ decode 0x00000550#32 = .ok (.xor 0x50#8) ∧
  decode 0x00000301#32 = .error .operandNotZero ∧ decode 0x00000600#32 = .error .reservedOpcode ∧
  decode 0x00100300#32 = .error .reservedBits

/-! ### The step (00_scope.md R9, 20_memory.md R57) -/

/-- R40, R57: a legal word written to CMD makes the step run that command; the step itself only takes the access off the
host's list and records the completed write (the model's own fields, logs 3 and 4). `withFetchWord` puts such a write first. -/
def Obligations.StepRunsTheWrittenCommand : Prop :=
  (∀ (s : State) (rest : List HostEvent) (w : Word) (i : Instr),
    s.pending = .access (.write 0x000#12 .word w) :: rest → decode w = .ok i →
    ∃ t, exec i { s with pending := rest } = .next t ∧ step s = .next { t with response := some .written }) ∧
  (∀ (s : State) (w : Word) (i : Instr), decode w = .ok i →
    ∃ t, exec i s = .next t ∧ step (s.withFetchWord 32 w.toNat) = .next { t with response := some .written })

/-- R184: an illegal word sets CMDERR, clears DVALID, and does nothing else. -/
def Obligations.IllegalWordRaisesOnlyCmderr : Prop :=
  ∀ (s : State) (rest : List HostEvent) (w : Word) (e : DecodeError),
    s.pending = .access (.write 0x000#12 .word w) :: rest → decode w = .error e →
    step s = .next { s with pending := rest, response := some .written, cmderr := true, dvalid := false }

/-- R198 (the state holds), R9; the idle step is the model's choice, log 6. -/
def Obligations.NothingPendingNothingChanges : Prop :=
  ∀ s : State, s.pending = [] → step s = .next s

/-- R220: no state stops the machine or is without a next state. -/
def Obligations.EveryStepCompletes : Prop := ∀ s : State, ∃ t, step s = .next t

/-- R57: an event that is no write to CMD and no reset leaves the whole tuple of R20 as it was. -/
def Obligations.OnlyCommandWritesAndResetChangeTheTuple : Prop :=
  ∀ (s t : State) (e : HostEvent) (rest : List HostEvent),
    s.pending = e :: rest → writesCmd e = false → isReset e = false → step s = .next t →
    SameTuple s t ∧ t.pending = rest ∧ t.resets = s.resets

/-! ### Reset (10_state.md R41, 70_reset_and_hazards.md R210) -/

/-- R41: the reset values, and what every register reads after reset. S and K are unspecified there, and nothing is said
of them here. -/
def Obligations.ResetValues : Prop :=
  State.reset.keylen = 0#9 ∧ State.reset.i = 0#8 ∧ State.reset.j = 0#8 ∧ State.reset.dout = 0#8 ∧
  State.reset.svalid = false ∧ State.reset.dvalid = false ∧ State.reset.keyerr = false ∧ State.reset.seqerr = false ∧
  State.reset.cmderr = false ∧ State.reset.kovf = false ∧
  ∀ r : ReadReg, readRegister r State.reset = 0x00000000#32

/-- Reset at any time, also while an access is held on the port, leaves the state of R41, as far as the port can observe it,
and the later accesses see that state. R210 says that a held COMMAND is lost; that any held access, a read or a refused one
too, is lost and gets no answer is the model's deduction (log 8), and the response being none after it the model's (log 4). -/
def Obligations.ResetAtAnyTimeGivesTheResetState : Prop :=
  ∀ (s : State) (e : HostEvent) (rest : List HostEvent),
    s.pending = e :: rest → (e = .reset ∨ ∃ a, e = .resetHolding a) →
    ∃ t, step s = .next t ∧ ObsEq { State.reset with pending := rest } t

/-! ### The port (20_memory.md) -/

/-- R52, R54, R55, R185: the port refuses exactly the accesses of the wrong size, alignment, offset or direction; a refused
access is answered with an error, yields no value and changes no state; no other access is answered so. -/
def Obligations.BusErrorExactlyWhenRefused : Prop :=
  ∀ (s : State) (a : Access) (rest : List HostEvent), s.pending = .access a :: rest →
    (Refused a → step s = .next { s with pending := rest, response := some .busError }) ∧
    (¬ Refused a → ∃ t, step s = .next t ∧ t.response ≠ some .busError ∧ t.response ≠ none)

/-- R53: an access to an unmapped offset is a bus error, and the key buffer has no address: no read's answer depends on it. -/
def Obligations.UnmappedOffsetsAndTheUnreadableKey : Prop :=
  (∀ (s : State) (off : Offset) (size : Size) (w : Word) (rest : List HostEvent) (a : Access),
    (0x010 ≤ off.toNat ∧ off.toNat ≤ 0x3FC) ∨ (0x800 ≤ off.toNat ∧ off.toNat ≤ 0xFFC) →
    a = .read off size ∨ a = .write off size w → s.pending = .access a :: rest →
    step s = .next { s with pending := rest, response := some .busError }) ∧
  (∀ (s : State) (off : Offset) (size : Size) (k : Table) (rest : List HostEvent),
    s.pending = .access (.read off size) :: rest →
    ∃ t, step s = .next t ∧ step { s with key := k } = .next { t with key := k })

/-- R56: a read changes no state, and its answer is a function of the tuple of R20 alone, so it may be repeated with the
same result until something changes the tuple. -/
def Obligations.ReadsHaveNoSideEffects : Prop :=
  ∀ (s : State) (off : Offset) (size : Size) (rest : List HostEvent), s.pending = .access (.read off size) :: rest →
    ∃ t, step s = .next t ∧ SameTuple s t ∧
      ∀ (u : State) (more : List HostEvent), SameTuple s u → u.pending = .access (.read off size) :: more →
        ∃ v, step u = .next v ∧ v.response = t.response

/-- R59: STATUS, bit by bit and as one word, its reserved bits 0, its value at reset 0, and in states that meet the
invariants KEYLEN is at most 256. -/
def Obligations.StatusReadsFlagsAndKeylen : Prop :=
  (∀ (s : State) (rest : List HostEvent), s.pending = .access (.read 0x004#12 .word) :: rest →
    ∃ w : Word, step s = .next { s with pending := rest, response := some (.data w) } ∧
      w.getLsbD 0 = s.svalid ∧ w.getLsbD 1 = s.dvalid ∧ w.getLsbD 2 = s.keyerr ∧ w.getLsbD 3 = s.seqerr ∧
      w.getLsbD 4 = s.cmderr ∧ w.getLsbD 5 = s.kovf ∧ w.extractLsb' 6 10 = 0#10 ∧ w.extractLsb' 16 9 = s.keylen ∧
      w.extractLsb' 25 7 = 0#7 ∧
      w = s.keylen.setWidth 32 <<< 16 ||| (BitVec.ofBool s.kovf).setWidth 32 <<< 5 |||
        (BitVec.ofBool s.cmderr).setWidth 32 <<< 4 ||| (BitVec.ofBool s.seqerr).setWidth 32 <<< 3 |||
        (BitVec.ofBool s.keyerr).setWidth 32 <<< 2 ||| (BitVec.ofBool s.dvalid).setWidth 32 <<< 1 |||
        (BitVec.ofBool s.svalid).setWidth 32 ∧
      (s.Inv → (w.extractLsb' 16 9).toNat ≤ 256)) ∧
  errorCode .invalidKey = 2 ∧ errorCode .sequence = 3 ∧ errorCode .illegalCommand = 4 ∧
  readRegister .status State.reset = 0x00000000#32

/-- R60, R61: DOUT and PRGA_IDX, and their reset values. -/
def Obligations.DoutAndIndicesRead : Prop :=
  (∀ (s : State) (rest : List HostEvent), s.pending = .access (.read 0x008#12 .word) :: rest →
    step s = .next { s with pending := rest, response := some (.data (s.dout.setWidth 32)) }) ∧
  (∀ (s : State) (rest : List HostEvent), s.pending = .access (.read 0x00C#12 .word) :: rest →
    step s = .next { s with pending := rest,
                            response := some (.data (s.j.setWidth 32 <<< 8 ||| s.i.setWidth 32)) }) ∧
  readRegister .dout State.reset = 0x00000000#32 ∧ readRegister .prgaIdx State.reset = 0x00000000#32

/-- R62: the S-box window at 0x400 + 4·k shows S while SVALID = 1 and 0 while SVALID = 0. -/
def Obligations.SboxWindowRead : Prop :=
  ∀ (s : State) (k : Byte) (off : Offset) (rest : List HostEvent),
    off.toNat = 0x400 + 4 * k.toNat → s.pending = .access (.read off .word) :: rest →
    step s = .next { s with pending := rest,
                            response := some (.data (if s.svalid = true then (readTable s.sbox k).setWidth 32 else 0#32)) }

/-- R50: the window is the 4096 bytes from RC4_BASE, a multiple of 4096, and an offset sits at RC4_BASE + off. An address
elsewhere does not reach the port (log 9). -/
def Obligations.WindowSitsAtTheBase : Prop :=
  Config.rc4Base % 4096 = 0 ∧
  (∀ (off : Offset) (size : Size) (w : Word),
    memRead (Config.rc4Base + off.toNat) size = some (.access (.read off size)) ∧
    memWrite (Config.rc4Base + off.toNat) size w = some (.access (.write off size w))) ∧
  (∀ (addr : Nat) (size : Size) (w : Word), addr < Config.rc4Base ∨ Config.rc4Base + 4096 ≤ addr →
    memRead addr size = none ∧ memWrite addr size w = none)

/-! ### NOP and CLR (43_control.md) -/

/-- R160: NOP is the word 0 and only clears DVALID. -/
def Obligations.NopClearsDvalid : Prop :=
  encode .nop = 0x00000000#32 ∧ ∀ s : State, exec .nop s = .next { s with dvalid := false }

/-- R161: CLR is the word 0x100 and clears KEYLEN, I, J, DOUT and the six flags; S and K keep their contents. STATUS, DOUT,
PRGA_IDX read 0 after it. -/
def Obligations.ClrClearsAllButTheArrays : Prop :=
  encode .clr = 0x00000100#32 ∧
  ∀ s : State, ∃ t, exec .clr s = .next t ∧
    t = { s with keylen := 0#9, i := 0#8, j := 0#8, dout := 0#8, svalid := false, dvalid := false, keyerr := false,
                 seqerr := false, cmderr := false, kovf := false } ∧
    readRegister .status t = 0#32 ∧ readRegister .dout t = 0#32 ∧ readRegister .prgaIdx t = 0#32

/-- R162: after CLR every register reads as after reset, and every later sequence of accesses and resets gets the same
answers. -/
def Obligations.ClrIsIndistinguishableFromReset : Prop :=
  ∀ s : State, ∃ t, exec .clr s = .next t ∧
    (∀ r : ReadReg, readRegister r t = readRegister r State.reset) ∧
    ∀ es : List HostEvent, portTrace es t = portTrace es State.reset

/-! ### KEYB and KSA (40_key_schedule.md) -/

/-- R101: KEYB b is the word 0x200 + b; with room it writes b to K[KEYLEN] and nothing else of K, and increments KEYLEN;
with KEYLEN = 256 (or above, which no run reaches, log 11) it discards b and sets KOVF; DVALID is cleared. -/
def Obligations.KeybAppendsOrOverflows : Prop :=
  (∀ b : Byte, encode (.keyb b) = 0x00000200#32 + b.setWidth 32) ∧
  (∀ (s : State) (b : Byte), s.keylen.toNat < 256 →
    ∃ (k : Table) (n : BitVec 9),
      exec (.keyb b) s = .next { s with key := k, keylen := n, dvalid := false } ∧
      n.toNat = s.keylen.toNat + 1 ∧
      ∀ m : Byte, readTable k m = if m.toNat = s.keylen.toNat then b else readTable s.key m) ∧
  (∀ (s : State) (b : Byte), 256 ≤ s.keylen.toNat → exec (.keyb b) s = .next { s with kovf := true, dvalid := false })

/-- R103, R182: KSA is the word 0x300. With a key it leaves the table of the 256-iteration schedule over key[i mod L],
I = J = DOUT = 0, SVALID = 1, DVALID = 0 and all else as it was; with none it sets KEYERR, clears SVALID and DVALID and
changes nothing else. -/
def Obligations.KsaSchedulesOrRejectsTheEmptyKey : Prop :=
  encode .ksa = 0x00000300#32 ∧
  (∀ s : State, s.keylen ≠ 0#9 →
    ∃ t : Table, IsSchedule (fun n => keyByte s (n % s.keylen.toNat)) t ∧
      exec .ksa s = .next { s with sbox := t, i := 0#8, j := 0#8, dout := 0#8, svalid := true, dvalid := false }) ∧
  (∀ s : State, s.keylen = 0#9 → exec .ksa s = .next { s with svalid := false, keyerr := true, dvalid := false })

/-- R104: KSA's result depends on the held key bytes only. -/
def Obligations.KsaDependsOnTheHeldKeyOnly : Prop :=
  ∀ s t : State, SameKey s t → s.keylen ≠ 0#9 →
    ∃ s' t', exec .ksa s = .next s' ∧ exec .ksa t = .next t' ∧ t'.sbox = s'.sbox ∧ t'.i = s'.i ∧ t'.j = s'.j ∧
      t'.dout = s'.dout ∧ t'.svalid = s'.svalid ∧ t'.dvalid = s'.dvalid

/-- R105: after a successful KSA, S is a permutation. -/
def Obligations.KsaLeavesAPermutation : Prop :=
  ∀ s : State, s.keylen ≠ 0#9 → ∃ t, exec .ksa s = .next t ∧ IsPermutation t.sbox

/-- R106: a key repeated m times gives the same S-box. -/
def Obligations.RepeatedKeySchedulesAlike : Prop :=
  ∀ (s t : State) (m : Nat), 1 ≤ s.keylen.toNat → 1 ≤ m → m * s.keylen.toNat ≤ 256 →
    t.keylen.toNat = m * s.keylen.toNat →
    (∀ n, n < t.keylen.toNat → keyByte t n = keyByte s (n % s.keylen.toNat)) →
    ∃ s' t', exec .ksa s = .next s' ∧ exec .ksa t = .next t' ∧ t'.sbox = s'.sbox

/-- R102: a key longer than 256 bytes, loaded by CLR and KEYBs and scheduled, gives the S-box the source's algorithm gives
the full key, which is that of its first 256 bytes; KOVF is set and 256 bytes are held. -/
def Obligations.LongKeysScheduleLikeTheirFirst256Bytes : Prop :=
  ∀ (key : List Byte) (s : State), 256 < key.length →
    ∃ t, hostCommands (scheduleCommands key) s = some t ∧ t.kovf = true ∧ t.keylen = 256#9 ∧
      heldKey t = key.take 256 ∧ sourceSchedule key = some t.sbox ∧ sourceSchedule (key.take 256) = some t.sbox

/-- R24, R25: KEYBs after CLR hold the key in order, KEYLEN counts them up to 256, and a key of 1 to 256 bytes is scheduled
as the source schedules it, without overflow. R216: further KEYBs without a CLR append, and KSA then schedules the
concatenation. -/
def Obligations.KeyBytesAreHeldInOrder : Prop :=
  ∀ (key : List Byte) (s : State), 1 ≤ key.length → key.length ≤ 256 →
    ∃ t, hostCommands (scheduleCommands key) s = some t ∧ heldKey t = key ∧ t.keylen.toNat = key.length ∧
      t.kovf = false ∧ t.keyerr = false ∧ t.svalid = true ∧ sourceSchedule key = some t.sbox ∧
      ∀ more : List Byte, ∃ u, hostCommands (more.map .keyb ++ [.ksa]) t = some u ∧
        heldKey u = (key ++ more).take 256 ∧ sourceSchedule (key ++ more) = some u.sbox

/-! ### GEN and XOR (41_keystream.md, 42_combine.md) -/

/-- R120, R121, R123: GEN is the word 0x400. With an S-box scheduled it is one PRGA step: I + 1, then J + S[I] read before
the swap, the swap, and DOUT = S[S[I] + S[J]] read after it (the index is also the sum of the two entries before it).
With none it sets SEQERR and clears DVALID only. -/
def Obligations.GenRunsOneGeneratorStep : Prop :=
  encode .gen = 0x00000400#32 ∧
  (∀ s : State, s.svalid = true →
    ∃ (i j : Byte) (t : Table),
      i = s.i + 1#8 ∧ j = s.j + readTable s.sbox i ∧ IsSwap s.sbox i j t ∧
      readTable t i + readTable t j = readTable s.sbox i + readTable s.sbox j ∧
      exec .gen s = .next { s with sbox := t, i := i, j := j, dout := readTable t (readTable t i + readTable t j),
                                   dvalid := true }) ∧
  (∀ s : State, s.svalid = false → exec .gen s = .next { s with seqerr := true, dvalid := false })

/-- R140, R141: XOR m is the word 0x500 + m; with an S-box scheduled it is the same step with DOUT = m ^ keystream byte,
with none it sets SEQERR and clears DVALID only. -/
def Obligations.XorCombinesOneByte : Prop :=
  (∀ m : Byte, encode (.xor m) = 0x00000500#32 + m.setWidth 32) ∧
  (∀ (s : State) (m : Byte), s.svalid = true →
    ∃ (i j ks : Byte) (t : Table),
      i = s.i + 1#8 ∧ j = s.j + readTable s.sbox i ∧ IsSwap s.sbox i j t ∧
      ks = readTable t (readTable t i + readTable t j) ∧
      exec (.xor m) s = .next { s with sbox := t, i := i, j := j, dout := m ^^^ ks, dvalid := true }) ∧
  (∀ (s : State) (m : Byte), s.svalid = false → exec (.xor m) s = .next { s with seqerr := true, dvalid := false })

/-- R142: XOR 0x00 and GEN have the same effect on the whole state. -/
def Obligations.XorZeroIsGen : Prop := ∀ s : State, exec (.xor 0x00#8) s = exec .gen s

/-- R122: the generator maps a permutation to a permutation and neither writes nor reads the key buffer. -/
def Obligations.GeneratorKeepsThePermutation : Prop :=
  ∀ (s : State) (i : Instr), usesGenerator i = true → s.svalid = true → IsPermutation s.sbox →
    ∃ t, exec i s = .next t ∧ IsPermutation t.sbox ∧ t.key = s.key ∧ t.keylen = s.keylen ∧
      ∀ (k : Table) (n : BitVec 9), exec i { s with key := k, keylen := n } = .next { t with key := k, keylen := n }

/-- R124: after a successful KSA, the GEN and XOR commands among any events that start no new keystream use the first bytes
of the source's keystream for the held key. -/
def Obligations.StreamingEqualsTheSourceKeystream : Prop :=
  ∀ (s t : State) (es : List HostEvent) (n : Nat),
    s.keylen ≠ 0#9 → s.keylen.toNat ≤ 256 → exec .ksa s = .next t →
    (∀ e ∈ es, keepsKeystream e = true) → generatorCommands es ≤ n →
    ∃ T : Table, sourceSchedule (heldKey s) = some T ∧
      keystreamUsed es t = some ((sourceKeystream T n).take (generatorCommands es))

/-- R125: I counts the generator steps mod 256; n GENs after a KSA leave I = n mod 256. -/
def Obligations.IndexCountsGeneratorSteps : Prop :=
  ∀ (s : State) (n : Nat), s.svalid = true → s.i = 0#8 →
    ∃ bs t, hostKeystream n s = some (bs, t) ∧ bs.length = n ∧ t.i.toNat = n % 256

/-- R127: the keystream after a successful KSA depends on the held key only. -/
def Obligations.KeystreamDependsOnTheKeyOnly : Prop :=
  ∀ (s t s' t' : State) (n : Nat), SameKey s t → s.keylen ≠ 0#9 → exec .ksa s = .next s' → exec .ksa t = .next t' →
    ∃ bs u v, hostKeystream n s' = some (bs, u) ∧ hostKeystream n t' = some (bs, v)

/-! ### The cipher procedure (42_combine.md) -/

/-- R143, R144: procedure R145 run on the CORE from any state gives the source's cipher, of any message and of the message's
length, and fails with InvalidKey exactly on the empty key. -/
def Obligations.CipherProcedureIsTheSourceCipher : Prop :=
  ∀ (key msg : List Byte) (s : State),
    (key ≠ [] → ∃ out t, sourceCipher key msg = some out ∧ hostCipher key msg s = some (.bytes out, t) ∧
      out.length = msg.length) ∧
    (key = [] → sourceCipher key msg = none ∧ ∃ t, hostCipher key msg s = some (.invalidKey, t))

/-- R146: cipher is its own inverse for a non-empty key, whatever the state before either call; the second call may also be
KSA and the ciphertext's bytes, without loading the key again. Without that KSA the ciphertext is combined with the
keystream's bytes N to 2N-1 instead. -/
def Obligations.CipherIsSelfInverse : Prop :=
  ∀ (key msg : List Byte) (s : State), key ≠ [] →
    ∃ out t, hostCipher key msg s = some (.bytes out, t) ∧
      (∀ u : State, ∃ v, hostCipher key out u = some (.bytes msg, v)) ∧
      (∃ u v, hostCommand .ksa t = some u ∧ hostBytes (out.map .xor) u = some (msg, v)) ∧
      ∃ T v, sourceSchedule key = some T ∧
        hostBytes (out.map .xor) t =
          some (List.zipWith (fun c ks => c ^^^ ks) out ((sourceKeystream T (2 * msg.length)).drop msg.length), v)

/-- R147: the output is as long as the message, and empty for the empty message. -/
def Obligations.CipherKeepsTheLength : Prop :=
  ∀ (key msg : List Byte) (s : State), key ≠ [] →
    ∃ out t, hostCipher key msg s = some (.bytes out, t) ∧ out.length = msg.length ∧ (msg = [] → out = [])

/-- R148: the result of cipher depends on the key and the message only, not on the state before. -/
def Obligations.CipherIsDeterministic : Prop :=
  ∀ (key msg : List Byte) (s t : State), ∃ r u v, hostCipher key msg s = some (r, u) ∧ hostCipher key msg t = some (r, v)

/-- R149: with an empty key CLR and KSA raise InvalidKey, procedure R145 fails, and every XOR after it, however many, fails
with SEQERR, latches no byte and leaves DVALID 0. -/
def Obligations.EmptyKeyNeverYieldsAByte : Prop :=
  ∀ (msg : List Byte) (s : State),
    (∃ t, hostCommands [.clr, .ksa] s = some t ∧ t.keyerr = true ∧ t.svalid = false) ∧
    ∃ t, hostCipher [] msg s = some (.invalidKey, t) ∧ t.keyerr = true ∧
      ∀ ms : List Byte, ∃ u, hostCommands (ms.map .xor) t = some u ∧ u.dout = t.dout ∧ u.dvalid = false ∧
        (u.seqerr = true ↔ ms ≠ []) ∧ u.sbox = t.sbox ∧ u.i = t.i ∧ u.j = t.j ∧ u.svalid = false

/-! ### Flags and errors (10_state.md R30 to R35, 60_exceptions.md) -/

/-- R183: GEN and XOR raise the sequence error exactly when SVALID = 0: SEQERR set, DVALID cleared, nothing else; with
SVALID = 1 SEQERR keeps its value. -/
def Obligations.SequenceErrorExactlyWhenUnscheduled : Prop :=
  ∀ (s : State) (i : Instr), usesGenerator i = true →
    (s.svalid = false → exec i s = .next { s with seqerr := true, dvalid := false }) ∧
    (s.svalid = true → ∃ t, exec i s = .next t ∧ t.seqerr = s.seqerr ∧ t.dvalid = true)

/-- R32 to R35, R187: the error codes; each sticky flag after an event is 1 exactly when the event is no CLR and no reset and either the flag
was 1 or the event is its cause. -/
def Obligations.StickyFlagsRiseByTheirCauseAndFallByClrOrReset : Prop :=
  (errorCode .invalidKey = 2 ∧ errorCode .sequence = 3 ∧ errorCode .illegalCommand = 4) ∧
  ∀ (s t : State) (e : HostEvent) (rest : List HostEvent), s.pending = e :: rest → step s = .next t →
    (t.keyerr = true ↔ (commandOf e ≠ some .clr ∧ isReset e = false) ∧
      (s.keyerr = true ∨ (commandOf e = some .ksa ∧ s.keylen = 0#9))) ∧
    (t.seqerr = true ↔ (commandOf e ≠ some .clr ∧ isReset e = false) ∧
      (s.seqerr = true ∨ ((∃ i, commandOf e = some i ∧ usesGenerator i = true) ∧ s.svalid = false))) ∧
    (t.cmderr = true ↔ (commandOf e ≠ some .clr ∧ isReset e = false) ∧
      (s.cmderr = true ∨ (writesCmd e = true ∧ commandOf e = none))) ∧
    (t.kovf = true ↔ (commandOf e ≠ some .clr ∧ isReset e = false) ∧
      (s.kovf = true ∨ ((∃ b, commandOf e = some (.keyb b)) ∧ 256 ≤ s.keylen.toNat)))

/-- R31: DVALID is 1 exactly when the most recent command written to CMD was a GEN or XOR that completed without error; an
access that is no command leaves it and reset clears it. -/
def Obligations.DvalidReportsTheLastCommand : Prop :=
  ∀ (s t : State) (e : HostEvent) (rest : List HostEvent), s.pending = e :: rest → step s = .next t →
    (writesCmd e = true → (t.dvalid = true ↔ (∃ i, commandOf e = some i ∧ usesGenerator i = true) ∧ s.svalid = true)) ∧
    (isReset e = true → t.dvalid = false) ∧
    (writesCmd e = false → isReset e = false → t.dvalid = s.dvalid)

/-- R30: SVALID rises by a successful KSA only and falls by a failed KSA, CLR and reset only. -/
def Obligations.SvalidRisesByKsaOnly : Prop :=
  ∀ (s t : State) (e : HostEvent) (rest : List HostEvent), s.pending = e :: rest → step s = .next t →
    (t.svalid = true ↔
      (commandOf e = some .ksa ∧ s.keylen ≠ 0#9) ∨
      (commandOf e ≠ some .ksa ∧ commandOf e ≠ some .clr ∧ isReset e = false ∧ s.svalid = true))

/-- R21, R24, R25, R27, R28, R29: which commands write which part of the tuple, resets apart. -/
def Obligations.EachPartHasItsWriters : Prop :=
  ∀ (s t : State) (e : HostEvent) (rest : List HostEvent), s.pending = e :: rest → isReset e = false → step s = .next t →
    ((commandOf e ≠ some .ksa ∧ ∀ i, commandOf e = some i → usesGenerator i = false) → t.sbox = s.sbox) ∧
    ((∀ b, commandOf e ≠ some (.keyb b)) → t.key = s.key) ∧
    ((commandOf e ≠ some .clr ∧ ∀ b, commandOf e ≠ some (.keyb b)) → t.keylen = s.keylen) ∧
    ((commandOf e ≠ some .ksa ∧ commandOf e ≠ some .clr ∧ ∀ i, commandOf e = some i → usesGenerator i = false) →
      t.i = s.i ∧ t.j = s.j ∧ t.dout = s.dout)

/-- R188: errors block nothing: a command's effect does not depend on the sticky flags. -/
def Obligations.ErrorsDoNotBlockCommands : Prop :=
  ∀ (s t : State) (i : Instr), SameButStickyFlags s t →
    ∃ s' t', exec i s = .next s' ∧ exec i t = .next t' ∧ SameButStickyFlags s' t'

/-- R189: the port's checks come first, then decode, then the command's own check; one access raises at most one error. -/
def Obligations.BusCheckThenDecodeThenCommand : Prop :=
  ∀ (s : State) (off : Offset) (size : Size) (w : Word) (rest : List HostEvent),
    s.pending = .access (.write off size w) :: rest →
    (Refused (.write off size w) → step s = .next { s with pending := rest, response := some .busError }) ∧
    (¬ Refused (.write off size w) → (∀ i, decode w ≠ .ok i) →
      step s = .next { s with pending := rest, response := some .written, cmderr := true, dvalid := false }) ∧
    (¬ Refused (.write off size w) → ∀ i, decode w = .ok i →
      ∃ t, step s = .next t ∧ t.response = some .written ∧ (t.cmderr = true → s.cmderr = true) ∧
        (t.keyerr = true → s.keyerr = true ∨ (i = .ksa ∧ s.keylen = 0#9)) ∧
        (t.seqerr = true → s.seqerr = true ∨ (usesGenerator i = true ∧ s.svalid = false)))

/-! ### Invariants and what the port can observe -/

/-- R22, R25, R42 at reset. -/
def Obligations.InvariantsHoldAtReset : Prop := State.reset.Inv

/-- R22, R25, R42: every step keeps the invariants, whatever the event. -/
def Obligations.EveryStepKeepsTheInvariants : Prop :=
  ∀ s t : State, s.Inv → step s = .next t → t.Inv

/-- R42: every state reached from reset by any host accesses meets the invariants, whatever S and K hold at reset. -/
def Obligations.ReachableStatesMeetTheInvariants : Prop :=
  ∀ (es : List HostEvent) (sbox key : Table) (n : Nat) (t : State),
    Sys2Proof.core.run n { State.reset with sbox := sbox, key := key, pending := es } = .next t →
    (t.keylen = 0#9 → t.svalid = false) ∧
    (t.svalid = false → t.i = 0#8 ∧ t.j = 0#8 ∧ t.dout = 0#8) ∧
    (t.svalid = true → IsPermutation t.sbox) ∧ t.keylen.toNat ≤ 256

/-- R23, R24, D30: two states that differ only in the unobservable contents of S and K get the same answers and stay so. -/
def Obligations.UnobservableArraysNeverShow : Prop :=
  ∀ s t : State, ObsEq s t → ∃ s' t', step s = .next s' ∧ step t = .next t' ∧ ObsEq s' t'

/-! ### Frames -/

/-- No command changes the model's own fields. -/
def Obligations.CommandsLeaveTheSurroundings : Prop :=
  ∀ (i : Instr) (s t : State), exec i s = .next t → SameSurroundings s t

/-- NOP leaves all but DVALID; CLR leaves every entry of S and K. -/
def Obligations.FrameOfNopAndClr : Prop :=
  (∀ s t : State, exec .nop s = .next t →
    t.sbox = s.sbox ∧ t.key = s.key ∧ t.keylen = s.keylen ∧ t.i = s.i ∧ t.j = s.j ∧ t.dout = s.dout ∧
    t.svalid = s.svalid ∧ t.keyerr = s.keyerr ∧ t.seqerr = s.seqerr ∧ t.cmderr = s.cmderr ∧ t.kovf = s.kovf) ∧
  (∀ s t : State, exec .clr s = .next t →
    ∀ k : Byte, readTable t.sbox k = readTable s.sbox k ∧ readTable t.key k = readTable s.key k)

/-- R101, R26: KEYB leaves S, I, J, DOUT, SVALID and the error flags, every key byte but K[KEYLEN], and all of K when the
buffer is full; KOVF with room, KEYLEN when full. -/
def Obligations.FrameOfKeyb : Prop :=
  ∀ (b : Byte) (s t : State), exec (.keyb b) s = .next t →
    t.sbox = s.sbox ∧ t.i = s.i ∧ t.j = s.j ∧ t.dout = s.dout ∧ t.svalid = s.svalid ∧ t.keyerr = s.keyerr ∧
    t.seqerr = s.seqerr ∧ t.cmderr = s.cmderr ∧
    (∀ n : Byte, n.toNat ≠ s.keylen.toNat → readTable t.key n = readTable s.key n) ∧
    (s.keylen.toNat < 256 → t.kovf = s.kovf) ∧
    (256 ≤ s.keylen.toNat → t.keylen = s.keylen ∧ ∀ n : Byte, readTable t.key n = readTable s.key n)

/-- R103: KSA leaves K, KEYLEN, SEQERR, CMDERR and KOVF; a successful one leaves KEYERR, and a failed one leaves S, I, J and
DOUT. -/
def Obligations.FrameOfKsa : Prop :=
  ∀ s t : State, exec .ksa s = .next t →
    t.key = s.key ∧ t.keylen = s.keylen ∧ t.seqerr = s.seqerr ∧ t.cmderr = s.cmderr ∧ t.kovf = s.kovf ∧
    (s.keylen ≠ 0#9 → t.keyerr = s.keyerr) ∧
    (s.keylen = 0#9 → (∀ k : Byte, readTable t.sbox k = readTable s.sbox k) ∧ t.i = s.i ∧ t.j = s.j ∧ t.dout = s.dout)

/-- R123, R141: GEN and XOR leave K, KEYLEN, SVALID, KEYERR, CMDERR and KOVF, and every entry of S but the two they swap; a
failed one leaves S, I, J and DOUT too. -/
def Obligations.FrameOfGenAndXor : Prop :=
  ∀ (i : Instr) (s t : State), usesGenerator i = true → exec i s = .next t →
    t.key = s.key ∧ t.keylen = s.keylen ∧ t.svalid = s.svalid ∧ t.keyerr = s.keyerr ∧ t.cmderr = s.cmderr ∧
    t.kovf = s.kovf ∧
    (s.svalid = true → t.seqerr = s.seqerr ∧
      ∀ k : Byte, k ≠ s.i + 1#8 → k ≠ s.j + readTable s.sbox (s.i + 1#8) → readTable t.sbox k = readTable s.sbox k) ∧
    (s.svalid = false → (∀ k : Byte, readTable t.sbox k = readTable s.sbox k) ∧ t.i = s.i ∧ t.j = s.j ∧ t.dout = s.dout)

/-! ### Assembler (30_encoding.md R89, R90) -/

/-- R89: an access line is one access: a command line writes its encoding to CMD, `.word` writes any word, `RD` reads the
register's offset, and an operand outside its range is an assembly error. -/
def Obligations.AssemblerLinesAreAccesses : Prop :=
  assembleLine .nop = some (.write 0x000#12 .word (encode .nop)) ∧
  assembleLine .clr = some (.write 0x000#12 .word (encode .clr)) ∧
  assembleLine .ksa = some (.write 0x000#12 .word (encode .ksa)) ∧
  assembleLine .gen = some (.write 0x000#12 .word (encode .gen)) ∧
  (∀ b : Byte, assembleLine (.keyb b.toNat) = some (.write 0x000#12 .word (encode (.keyb b))) ∧
    assembleLine (.xor b.toNat) = some (.write 0x000#12 .word (encode (.xor b))) ∧
    ∃ off : Offset, off.toNat = 0x400 + 4 * b.toNat ∧ assembleLine (.rdSbox b.toNat) = some (.read off .word)) ∧
  (∀ w : Word, assembleLine (.word w.toNat) = some (.write 0x000#12 .word w)) ∧
  assembleLine .rdStatus = some (.read 0x004#12 .word) ∧ assembleLine .rdDout = some (.read 0x008#12 .word) ∧
  assembleLine .rdPrgaIdx = some (.read 0x00C#12 .word) ∧
  (∀ n : Nat, 256 ≤ n → assembleLine (.keyb n) = none ∧ assembleLine (.xor n) = none ∧ assembleLine (.rdSbox n) = none)

/-- R90: a pseudo-instruction is exactly its expansion, also with no operand. -/
def Obligations.PseudoInstructionsExpand : Prop :=
  (∀ bs : List Nat, expandPseudo (.setkey bs) = [.clr] ++ bs.map .keyb ++ [.ksa]) ∧
  expandPseudo (.setkey []) = [.clr, .ksa] ∧ expandPseudo .resched = [.ksa] ∧
  (∀ bs : List Nat, expandPseudo (.enc bs) = bs.flatMap fun b => [.xor b, .rdDout]) ∧
  (∀ n : Nat, expandPseudo (.ks n) = (List.replicate n [AsmLine.gen, .rdDout]).flatten)
end

