-- ==== Sys2Proof/Laws/State.lean ====
section
/-! SUPPORT. What each named update of the state does to each field, one lemma per field, so that no proof unfolds an update. -/

namespace Sys2Proof.Machine

/-! ### withPending -/

@[simp] theorem withPending_sbox (rest : List HostEvent) (s : State) : (withPending rest s).sbox = s.sbox := rfl
@[simp] theorem withPending_key (rest : List HostEvent) (s : State) : (withPending rest s).key = s.key := rfl
@[simp] theorem withPending_keylen (rest : List HostEvent) (s : State) : (withPending rest s).keylen = s.keylen := rfl
@[simp] theorem withPending_i (rest : List HostEvent) (s : State) : (withPending rest s).i = s.i := rfl
@[simp] theorem withPending_j (rest : List HostEvent) (s : State) : (withPending rest s).j = s.j := rfl
@[simp] theorem withPending_dout (rest : List HostEvent) (s : State) : (withPending rest s).dout = s.dout := rfl
@[simp] theorem withPending_svalid (rest : List HostEvent) (s : State) : (withPending rest s).svalid = s.svalid := rfl
@[simp] theorem withPending_dvalid (rest : List HostEvent) (s : State) : (withPending rest s).dvalid = s.dvalid := rfl
@[simp] theorem withPending_keyerr (rest : List HostEvent) (s : State) : (withPending rest s).keyerr = s.keyerr := rfl
@[simp] theorem withPending_seqerr (rest : List HostEvent) (s : State) : (withPending rest s).seqerr = s.seqerr := rfl
@[simp] theorem withPending_cmderr (rest : List HostEvent) (s : State) : (withPending rest s).cmderr = s.cmderr := rfl
@[simp] theorem withPending_kovf (rest : List HostEvent) (s : State) : (withPending rest s).kovf = s.kovf := rfl
@[simp] theorem withPending_pending (rest : List HostEvent) (s : State) : (withPending rest s).pending = rest := rfl
@[simp] theorem withPending_response (rest : List HostEvent) (s : State) : (withPending rest s).response = s.response := rfl
@[simp] theorem withPending_resets (rest : List HostEvent) (s : State) : (withPending rest s).resets = s.resets := rfl

/-! ### withResponse -/

@[simp] theorem withResponse_sbox (r : Response) (s : State) : (withResponse r s).sbox = s.sbox := rfl
@[simp] theorem withResponse_key (r : Response) (s : State) : (withResponse r s).key = s.key := rfl
@[simp] theorem withResponse_keylen (r : Response) (s : State) : (withResponse r s).keylen = s.keylen := rfl
@[simp] theorem withResponse_i (r : Response) (s : State) : (withResponse r s).i = s.i := rfl
@[simp] theorem withResponse_j (r : Response) (s : State) : (withResponse r s).j = s.j := rfl
@[simp] theorem withResponse_dout (r : Response) (s : State) : (withResponse r s).dout = s.dout := rfl
@[simp] theorem withResponse_svalid (r : Response) (s : State) : (withResponse r s).svalid = s.svalid := rfl
@[simp] theorem withResponse_dvalid (r : Response) (s : State) : (withResponse r s).dvalid = s.dvalid := rfl
@[simp] theorem withResponse_keyerr (r : Response) (s : State) : (withResponse r s).keyerr = s.keyerr := rfl
@[simp] theorem withResponse_seqerr (r : Response) (s : State) : (withResponse r s).seqerr = s.seqerr := rfl
@[simp] theorem withResponse_cmderr (r : Response) (s : State) : (withResponse r s).cmderr = s.cmderr := rfl
@[simp] theorem withResponse_kovf (r : Response) (s : State) : (withResponse r s).kovf = s.kovf := rfl
@[simp] theorem withResponse_pending (r : Response) (s : State) : (withResponse r s).pending = s.pending := rfl
@[simp] theorem withResponse_response (r : Response) (s : State) : (withResponse r s).response = some r := rfl
@[simp] theorem withResponse_resets (r : Response) (s : State) : (withResponse r s).resets = s.resets := rfl

/-! ### clearDvalid -/

@[simp] theorem clearDvalid_sbox (s : State) : (clearDvalid s).sbox = s.sbox := rfl
@[simp] theorem clearDvalid_key (s : State) : (clearDvalid s).key = s.key := rfl
@[simp] theorem clearDvalid_keylen (s : State) : (clearDvalid s).keylen = s.keylen := rfl
@[simp] theorem clearDvalid_i (s : State) : (clearDvalid s).i = s.i := rfl
@[simp] theorem clearDvalid_j (s : State) : (clearDvalid s).j = s.j := rfl
@[simp] theorem clearDvalid_dout (s : State) : (clearDvalid s).dout = s.dout := rfl
@[simp] theorem clearDvalid_svalid (s : State) : (clearDvalid s).svalid = s.svalid := rfl
@[simp] theorem clearDvalid_dvalid (s : State) : (clearDvalid s).dvalid = false := rfl
@[simp] theorem clearDvalid_keyerr (s : State) : (clearDvalid s).keyerr = s.keyerr := rfl
@[simp] theorem clearDvalid_seqerr (s : State) : (clearDvalid s).seqerr = s.seqerr := rfl
@[simp] theorem clearDvalid_cmderr (s : State) : (clearDvalid s).cmderr = s.cmderr := rfl
@[simp] theorem clearDvalid_kovf (s : State) : (clearDvalid s).kovf = s.kovf := rfl
@[simp] theorem clearDvalid_pending (s : State) : (clearDvalid s).pending = s.pending := rfl
@[simp] theorem clearDvalid_response (s : State) : (clearDvalid s).response = s.response := rfl
@[simp] theorem clearDvalid_resets (s : State) : (clearDvalid s).resets = s.resets := rfl

/-! ### latchResult -/

@[simp] theorem latchResult_sbox (b : Byte) (s : State) : (latchResult b s).sbox = s.sbox := rfl
@[simp] theorem latchResult_key (b : Byte) (s : State) : (latchResult b s).key = s.key := rfl
@[simp] theorem latchResult_keylen (b : Byte) (s : State) : (latchResult b s).keylen = s.keylen := rfl
@[simp] theorem latchResult_i (b : Byte) (s : State) : (latchResult b s).i = s.i := rfl
@[simp] theorem latchResult_j (b : Byte) (s : State) : (latchResult b s).j = s.j := rfl
@[simp] theorem latchResult_dout (b : Byte) (s : State) : (latchResult b s).dout = b := rfl
@[simp] theorem latchResult_svalid (b : Byte) (s : State) : (latchResult b s).svalid = s.svalid := rfl
@[simp] theorem latchResult_dvalid (b : Byte) (s : State) : (latchResult b s).dvalid = true := rfl
@[simp] theorem latchResult_keyerr (b : Byte) (s : State) : (latchResult b s).keyerr = s.keyerr := rfl
@[simp] theorem latchResult_seqerr (b : Byte) (s : State) : (latchResult b s).seqerr = s.seqerr := rfl
@[simp] theorem latchResult_cmderr (b : Byte) (s : State) : (latchResult b s).cmderr = s.cmderr := rfl
@[simp] theorem latchResult_kovf (b : Byte) (s : State) : (latchResult b s).kovf = s.kovf := rfl
@[simp] theorem latchResult_pending (b : Byte) (s : State) : (latchResult b s).pending = s.pending := rfl
@[simp] theorem latchResult_response (b : Byte) (s : State) : (latchResult b s).response = s.response := rfl
@[simp] theorem latchResult_resets (b : Byte) (s : State) : (latchResult b s).resets = s.resets := rfl

/-! ### appendKey -/

@[simp] theorem appendKey_sbox (b : Byte) (s : State) : (appendKey b s).sbox = s.sbox := rfl
@[simp] theorem appendKey_key (b : Byte) (s : State) : (appendKey b s).key = writeTable s.key (s.keylen.setWidth 8) b := rfl
@[simp] theorem appendKey_keylen (b : Byte) (s : State) : (appendKey b s).keylen = s.keylen + 1#9 := rfl
@[simp] theorem appendKey_i (b : Byte) (s : State) : (appendKey b s).i = s.i := rfl
@[simp] theorem appendKey_j (b : Byte) (s : State) : (appendKey b s).j = s.j := rfl
@[simp] theorem appendKey_dout (b : Byte) (s : State) : (appendKey b s).dout = s.dout := rfl
@[simp] theorem appendKey_svalid (b : Byte) (s : State) : (appendKey b s).svalid = s.svalid := rfl
@[simp] theorem appendKey_dvalid (b : Byte) (s : State) : (appendKey b s).dvalid = s.dvalid := rfl
@[simp] theorem appendKey_keyerr (b : Byte) (s : State) : (appendKey b s).keyerr = s.keyerr := rfl
@[simp] theorem appendKey_seqerr (b : Byte) (s : State) : (appendKey b s).seqerr = s.seqerr := rfl
@[simp] theorem appendKey_cmderr (b : Byte) (s : State) : (appendKey b s).cmderr = s.cmderr := rfl
@[simp] theorem appendKey_kovf (b : Byte) (s : State) : (appendKey b s).kovf = s.kovf := rfl
@[simp] theorem appendKey_pending (b : Byte) (s : State) : (appendKey b s).pending = s.pending := rfl
@[simp] theorem appendKey_response (b : Byte) (s : State) : (appendKey b s).response = s.response := rfl
@[simp] theorem appendKey_resets (b : Byte) (s : State) : (appendKey b s).resets = s.resets := rfl

/-! ### clearState -/

@[simp] theorem clearState_sbox (s : State) : (clearState s).sbox = s.sbox := rfl
@[simp] theorem clearState_key (s : State) : (clearState s).key = s.key := rfl
@[simp] theorem clearState_keylen (s : State) : (clearState s).keylen = 0#9 := rfl
@[simp] theorem clearState_i (s : State) : (clearState s).i = 0#8 := rfl
@[simp] theorem clearState_j (s : State) : (clearState s).j = 0#8 := rfl
@[simp] theorem clearState_dout (s : State) : (clearState s).dout = 0#8 := rfl
@[simp] theorem clearState_svalid (s : State) : (clearState s).svalid = false := rfl
@[simp] theorem clearState_dvalid (s : State) : (clearState s).dvalid = false := rfl
@[simp] theorem clearState_keyerr (s : State) : (clearState s).keyerr = false := rfl
@[simp] theorem clearState_seqerr (s : State) : (clearState s).seqerr = false := rfl
@[simp] theorem clearState_cmderr (s : State) : (clearState s).cmderr = false := rfl
@[simp] theorem clearState_kovf (s : State) : (clearState s).kovf = false := rfl
@[simp] theorem clearState_pending (s : State) : (clearState s).pending = s.pending := rfl
@[simp] theorem clearState_response (s : State) : (clearState s).response = s.response := rfl
@[simp] theorem clearState_resets (s : State) : (clearState s).resets = s.resets := rfl

/-! ### releaseReset -/

@[simp] theorem releaseReset_sbox (s : State) : (releaseReset s).sbox = Config.sboxAfterReset s.resets := rfl
@[simp] theorem releaseReset_key (s : State) : (releaseReset s).key = Config.keyAfterReset s.resets := rfl
@[simp] theorem releaseReset_keylen (s : State) : (releaseReset s).keylen = 0#9 := rfl
@[simp] theorem releaseReset_i (s : State) : (releaseReset s).i = 0#8 := rfl
@[simp] theorem releaseReset_j (s : State) : (releaseReset s).j = 0#8 := rfl
@[simp] theorem releaseReset_dout (s : State) : (releaseReset s).dout = 0#8 := rfl
@[simp] theorem releaseReset_svalid (s : State) : (releaseReset s).svalid = false := rfl
@[simp] theorem releaseReset_dvalid (s : State) : (releaseReset s).dvalid = false := rfl
@[simp] theorem releaseReset_keyerr (s : State) : (releaseReset s).keyerr = false := rfl
@[simp] theorem releaseReset_seqerr (s : State) : (releaseReset s).seqerr = false := rfl
@[simp] theorem releaseReset_cmderr (s : State) : (releaseReset s).cmderr = false := rfl
@[simp] theorem releaseReset_kovf (s : State) : (releaseReset s).kovf = false := rfl
@[simp] theorem releaseReset_pending (s : State) : (releaseReset s).pending = s.pending := rfl
@[simp] theorem releaseReset_response (s : State) : (releaseReset s).response = none := rfl
@[simp] theorem releaseReset_resets (s : State) : (releaseReset s).resets = s.resets + 1 := rfl

/-! ### startKeystream -/

@[simp] theorem startKeystream_sbox (t : Table) (s : State) : (startKeystream t s).sbox = t := rfl
@[simp] theorem startKeystream_key (t : Table) (s : State) : (startKeystream t s).key = s.key := rfl
@[simp] theorem startKeystream_keylen (t : Table) (s : State) : (startKeystream t s).keylen = s.keylen := rfl
@[simp] theorem startKeystream_i (t : Table) (s : State) : (startKeystream t s).i = 0#8 := rfl
@[simp] theorem startKeystream_j (t : Table) (s : State) : (startKeystream t s).j = 0#8 := rfl
@[simp] theorem startKeystream_dout (t : Table) (s : State) : (startKeystream t s).dout = 0#8 := rfl
@[simp] theorem startKeystream_svalid (t : Table) (s : State) : (startKeystream t s).svalid = true := rfl
@[simp] theorem startKeystream_dvalid (t : Table) (s : State) : (startKeystream t s).dvalid = false := rfl
@[simp] theorem startKeystream_keyerr (t : Table) (s : State) : (startKeystream t s).keyerr = s.keyerr := rfl
@[simp] theorem startKeystream_seqerr (t : Table) (s : State) : (startKeystream t s).seqerr = s.seqerr := rfl
@[simp] theorem startKeystream_cmderr (t : Table) (s : State) : (startKeystream t s).cmderr = s.cmderr := rfl
@[simp] theorem startKeystream_kovf (t : Table) (s : State) : (startKeystream t s).kovf = s.kovf := rfl
@[simp] theorem startKeystream_pending (t : Table) (s : State) : (startKeystream t s).pending = s.pending := rfl
@[simp] theorem startKeystream_response (t : Table) (s : State) : (startKeystream t s).response = s.response := rfl
@[simp] theorem startKeystream_resets (t : Table) (s : State) : (startKeystream t s).resets = s.resets := rfl

/-! ### clearSvalid -/

@[simp] theorem clearSvalid_sbox (s : State) : (clearSvalid s).sbox = s.sbox := rfl
@[simp] theorem clearSvalid_key (s : State) : (clearSvalid s).key = s.key := rfl
@[simp] theorem clearSvalid_keylen (s : State) : (clearSvalid s).keylen = s.keylen := rfl
@[simp] theorem clearSvalid_i (s : State) : (clearSvalid s).i = s.i := rfl
@[simp] theorem clearSvalid_j (s : State) : (clearSvalid s).j = s.j := rfl
@[simp] theorem clearSvalid_dout (s : State) : (clearSvalid s).dout = s.dout := rfl
@[simp] theorem clearSvalid_svalid (s : State) : (clearSvalid s).svalid = false := rfl
@[simp] theorem clearSvalid_dvalid (s : State) : (clearSvalid s).dvalid = s.dvalid := rfl
@[simp] theorem clearSvalid_keyerr (s : State) : (clearSvalid s).keyerr = s.keyerr := rfl
@[simp] theorem clearSvalid_seqerr (s : State) : (clearSvalid s).seqerr = s.seqerr := rfl
@[simp] theorem clearSvalid_cmderr (s : State) : (clearSvalid s).cmderr = s.cmderr := rfl
@[simp] theorem clearSvalid_kovf (s : State) : (clearSvalid s).kovf = s.kovf := rfl
@[simp] theorem clearSvalid_pending (s : State) : (clearSvalid s).pending = s.pending := rfl
@[simp] theorem clearSvalid_response (s : State) : (clearSvalid s).response = s.response := rfl
@[simp] theorem clearSvalid_resets (s : State) : (clearSvalid s).resets = s.resets := rfl

/-! ### setOverflow -/

@[simp] theorem setOverflow_sbox (s : State) : (setOverflow s).sbox = s.sbox := rfl
@[simp] theorem setOverflow_key (s : State) : (setOverflow s).key = s.key := rfl
@[simp] theorem setOverflow_keylen (s : State) : (setOverflow s).keylen = s.keylen := rfl
@[simp] theorem setOverflow_i (s : State) : (setOverflow s).i = s.i := rfl
@[simp] theorem setOverflow_j (s : State) : (setOverflow s).j = s.j := rfl
@[simp] theorem setOverflow_dout (s : State) : (setOverflow s).dout = s.dout := rfl
@[simp] theorem setOverflow_svalid (s : State) : (setOverflow s).svalid = s.svalid := rfl
@[simp] theorem setOverflow_dvalid (s : State) : (setOverflow s).dvalid = s.dvalid := rfl
@[simp] theorem setOverflow_keyerr (s : State) : (setOverflow s).keyerr = s.keyerr := rfl
@[simp] theorem setOverflow_seqerr (s : State) : (setOverflow s).seqerr = s.seqerr := rfl
@[simp] theorem setOverflow_cmderr (s : State) : (setOverflow s).cmderr = s.cmderr := rfl
@[simp] theorem setOverflow_kovf (s : State) : (setOverflow s).kovf = true := rfl
@[simp] theorem setOverflow_pending (s : State) : (setOverflow s).pending = s.pending := rfl
@[simp] theorem setOverflow_response (s : State) : (setOverflow s).response = s.response := rfl
@[simp] theorem setOverflow_resets (s : State) : (setOverflow s).resets = s.resets := rfl

/-! ### setErrorFlag -/

@[simp] theorem setErrorFlag_sbox (e : CmdError) (s : State) : (setErrorFlag e s).sbox = s.sbox := by cases e <;> rfl
@[simp] theorem setErrorFlag_key (e : CmdError) (s : State) : (setErrorFlag e s).key = s.key := by cases e <;> rfl
@[simp] theorem setErrorFlag_keylen (e : CmdError) (s : State) : (setErrorFlag e s).keylen = s.keylen := by cases e <;> rfl
@[simp] theorem setErrorFlag_i (e : CmdError) (s : State) : (setErrorFlag e s).i = s.i := by cases e <;> rfl
@[simp] theorem setErrorFlag_j (e : CmdError) (s : State) : (setErrorFlag e s).j = s.j := by cases e <;> rfl
@[simp] theorem setErrorFlag_dout (e : CmdError) (s : State) : (setErrorFlag e s).dout = s.dout := by cases e <;> rfl
@[simp] theorem setErrorFlag_svalid (e : CmdError) (s : State) : (setErrorFlag e s).svalid = s.svalid := by cases e <;> rfl
@[simp] theorem setErrorFlag_dvalid (e : CmdError) (s : State) : (setErrorFlag e s).dvalid = s.dvalid := by cases e <;> rfl
@[simp] theorem setErrorFlag_keyerr (e : CmdError) (s : State) :
    (setErrorFlag e s).keyerr = (s.keyerr || e == .invalidKey) := by
  cases e <;> cases h : s.keyerr <;> simp [setErrorFlag, h]
@[simp] theorem setErrorFlag_seqerr (e : CmdError) (s : State) :
    (setErrorFlag e s).seqerr = (s.seqerr || e == .sequence) := by
  cases e <;> cases h : s.seqerr <;> simp [setErrorFlag, h]
@[simp] theorem setErrorFlag_cmderr (e : CmdError) (s : State) :
    (setErrorFlag e s).cmderr = (s.cmderr || e == .illegalCommand) := by
  cases e <;> cases h : s.cmderr <;> simp [setErrorFlag, h]
@[simp] theorem setErrorFlag_kovf (e : CmdError) (s : State) : (setErrorFlag e s).kovf = s.kovf := by cases e <;> rfl
@[simp] theorem setErrorFlag_pending (e : CmdError) (s : State) : (setErrorFlag e s).pending = s.pending := by cases e <;> rfl
@[simp] theorem setErrorFlag_response (e : CmdError) (s : State) : (setErrorFlag e s).response = s.response := by cases e <;> rfl
@[simp] theorem setErrorFlag_resets (e : CmdError) (s : State) : (setErrorFlag e s).resets = s.resets := by cases e <;> rfl

/-! ### raiseCmdError -/

@[simp] theorem raiseCmdError_sbox (e : CmdError) (s : State) : (raiseCmdError e s).sbox = s.sbox := by cases e <;> rfl
@[simp] theorem raiseCmdError_key (e : CmdError) (s : State) : (raiseCmdError e s).key = s.key := by cases e <;> rfl
@[simp] theorem raiseCmdError_keylen (e : CmdError) (s : State) : (raiseCmdError e s).keylen = s.keylen := by cases e <;> rfl
@[simp] theorem raiseCmdError_i (e : CmdError) (s : State) : (raiseCmdError e s).i = s.i := by cases e <;> rfl
@[simp] theorem raiseCmdError_j (e : CmdError) (s : State) : (raiseCmdError e s).j = s.j := by cases e <;> rfl
@[simp] theorem raiseCmdError_dout (e : CmdError) (s : State) : (raiseCmdError e s).dout = s.dout := by cases e <;> rfl
@[simp] theorem raiseCmdError_svalid (e : CmdError) (s : State) : (raiseCmdError e s).svalid = s.svalid := by cases e <;> rfl
@[simp] theorem raiseCmdError_dvalid (e : CmdError) (s : State) : (raiseCmdError e s).dvalid = false := rfl
@[simp] theorem raiseCmdError_keyerr (e : CmdError) (s : State) :
    (raiseCmdError e s).keyerr = (s.keyerr || e == .invalidKey) := by
  cases e <;> cases h : s.keyerr <;> simp [raiseCmdError, setErrorFlag, h]
@[simp] theorem raiseCmdError_seqerr (e : CmdError) (s : State) :
    (raiseCmdError e s).seqerr = (s.seqerr || e == .sequence) := by
  cases e <;> cases h : s.seqerr <;> simp [raiseCmdError, setErrorFlag, h]
@[simp] theorem raiseCmdError_cmderr (e : CmdError) (s : State) :
    (raiseCmdError e s).cmderr = (s.cmderr || e == .illegalCommand) := by
  cases e <;> cases h : s.cmderr <;> simp [raiseCmdError, setErrorFlag, h]
@[simp] theorem raiseCmdError_kovf (e : CmdError) (s : State) : (raiseCmdError e s).kovf = s.kovf := by cases e <;> rfl
@[simp] theorem raiseCmdError_pending (e : CmdError) (s : State) : (raiseCmdError e s).pending = s.pending := by cases e <;> rfl
@[simp] theorem raiseCmdError_response (e : CmdError) (s : State) : (raiseCmdError e s).response = s.response := by cases e <;> rfl
@[simp] theorem raiseCmdError_resets (e : CmdError) (s : State) : (raiseCmdError e s).resets = s.resets := by cases e <;> rfl

/-! ### prgaStep -/

@[simp] theorem prgaStep_sbox (s : State) :
    (prgaStep s).1.sbox = swapTable s.sbox (s.i + 1#8) (s.j + readTable s.sbox (s.i + 1#8)) := rfl
@[simp] theorem prgaStep_key (s : State) :
    (prgaStep s).1.key = s.key := rfl
@[simp] theorem prgaStep_keylen (s : State) :
    (prgaStep s).1.keylen = s.keylen := rfl
@[simp] theorem prgaStep_i (s : State) :
    (prgaStep s).1.i = s.i + 1#8 := rfl
@[simp] theorem prgaStep_j (s : State) :
    (prgaStep s).1.j = s.j + readTable s.sbox (s.i + 1#8) := rfl
@[simp] theorem prgaStep_dout (s : State) :
    (prgaStep s).1.dout = s.dout := rfl
@[simp] theorem prgaStep_svalid (s : State) :
    (prgaStep s).1.svalid = s.svalid := rfl
@[simp] theorem prgaStep_dvalid (s : State) :
    (prgaStep s).1.dvalid = s.dvalid := rfl
@[simp] theorem prgaStep_keyerr (s : State) :
    (prgaStep s).1.keyerr = s.keyerr := rfl
@[simp] theorem prgaStep_seqerr (s : State) :
    (prgaStep s).1.seqerr = s.seqerr := rfl
@[simp] theorem prgaStep_cmderr (s : State) :
    (prgaStep s).1.cmderr = s.cmderr := rfl
@[simp] theorem prgaStep_kovf (s : State) :
    (prgaStep s).1.kovf = s.kovf := rfl
@[simp] theorem prgaStep_pending (s : State) :
    (prgaStep s).1.pending = s.pending := rfl
@[simp] theorem prgaStep_response (s : State) :
    (prgaStep s).1.response = s.response := rfl
@[simp] theorem prgaStep_resets (s : State) :
    (prgaStep s).1.resets = s.resets := rfl

end Sys2Proof.Machine
end

