-- ==== Sys2Proof/Laws/Ops.lean ====
section
/-! SUPPORT. The laws of the tables and of the register window: a read after a write, the swap, permutations, and which
accesses the port selects. -/

namespace Sys2Proof.Machine

/-! ### Tables -/

theorem readTable_writeTable (t : Table) (a b v : Byte) :
    readTable (writeTable t a v) b = if a = b then v else readTable t b := by
  simp only [readTable, writeTable, Vector.getElem_set]
  by_cases h : a = b
  · simp [h]
  · have : a.toNat ≠ b.toNat := fun e => h (BitVec.eq_of_toNat_eq e)
    simp [h, this]

@[simp] theorem readTable_writeTable_self (t : Table) (a v : Byte) : readTable (writeTable t a v) a = v := by
  simp [readTable_writeTable]

theorem readTable_writeTable_of_ne (t : Table) {a b : Byte} (v : Byte) (h : a ≠ b) :
    readTable (writeTable t a v) b = readTable t b := by
  simp [readTable_writeTable, h]

theorem table_ext {t u : Table} (h : ∀ k : Byte, readTable t k = readTable u k) : t = u := by
  apply Vector.ext
  intro n hn
  have := h (BitVec.ofNat 8 n)
  simpa [readTable, BitVec.toNat_ofNat, Nat.mod_eq_of_lt hn] using this

/-- Reading a table that lists a function's values. -/
theorem getElem_listed (f : Nat → Byte) (n k : Nat) (h : ((List.range n).map f).toArray.size = n) (hk : k < n) :
    (Vector.mk ((List.range n).map f).toArray h)[k] = f k := by
  simp

@[simp] theorem readTable_identityTable (k : Byte) : readTable identityTable k = k := by
  unfold readTable identityTable
  rw [getElem_listed, BitVec.ofNat_toNat, BitVec.setWidth_eq]

theorem swapTable_isSwap (t : Table) (a b : Byte) : IsSwap t a b (swapTable t a b) := by
  refine ⟨?_, ?_, fun k ha hb => ?_⟩
  · by_cases h : b = a <;> simp [swapTable, readTable_writeTable, h]
  · simp [swapTable]
  · simp [swapTable, readTable_writeTable, ha.symm, hb.symm]

/-- The exchange is one table only, so a proof may replace one description of it by the other. -/
theorem IsSwap.eq_swapTable {t u : Table} {a b : Byte} (h : IsSwap t a b u) : u = swapTable t a b := by
  obtain ⟨ha, hb, hne⟩ := h
  obtain ⟨ga, gb, gne⟩ := swapTable_isSwap t a b
  apply table_ext
  intro k
  by_cases h1 : k = a
  · rw [h1, ha, ga]
  · by_cases h2 : k = b
    · rw [h2, hb, gb]
    · rw [hne k h1 h2, gne k h1 h2]

/-- A genuine swap maps a permutation to a permutation (40_key_schedule.md R105). -/
theorem IsSwap.isPermutation {t u : Table} {a b : Byte} (h : IsSwap t a b u) (hp : IsPermutation t) : IsPermutation u := by
  obtain ⟨ha, hb, hne⟩ := h
  have inj : ∀ x y : Byte, readTable t x = readTable t y → x = y := fun x y e => by
    obtain ⟨k, -, hk⟩ := hp (readTable t y)
    rw [hk x e, hk y rfl]
  intro v
  obtain ⟨k, hv, hk⟩ := hp v
  have back : ∀ k', readTable u k' = v → k' = if k = a then b else if k = b then a else k := by
    intro k' hk'
    by_cases h1 : k' = a
    · subst h1
      have : b = k := hk b (by rw [← ha, hk'])
      subst this
      by_cases h : b = k' <;> simp [h]
    · by_cases h2 : k' = b
      · subst h2
        have : a = k := hk a (by rw [← hb, hk'])
        simp [this]
      · have : k' = k := hk k' (by rw [← hne k' h1 h2, hk'])
        subst this
        simp [h1, h2]
  refine ⟨if k = a then b else if k = b then a else k, ?_, back⟩
  split
  · next e => rw [hb, ← e, hv]
  · split
    · next e => rw [ha, ← e, hv]
    · next h1 h2 => rw [hne k h1 h2, hv]

theorem identityTable_isPermutation : IsPermutation identityTable := fun v => ⟨v, by simp, fun k h => by simpa using h⟩

/-! ### The register window -/

theorem selectWrite_ok_iff (off : Offset) (size : Size) :
    selectWrite off size = .ok () ↔ size = .word ∧ off.toNat = 0 := by
  constructor
  · intro h
    unfold selectWrite selectRegister at h
    by_cases hs : size = .word
    · refine ⟨hs, ?_⟩
      by_contra h0
      have h0' : off ≠ 0#12 := fun e => h0 (by simp [e])
      by_cases ha : off.extractLsb' 0 2 = 0#2
      · simp only [hs, ha, registerAt, h0', ne_eq, not_true_eq_false, if_false] at h
        split_ifs at h
      · simp [hs, ha] at h
    · simp [hs] at h
  · rintro ⟨rfl, h⟩
    have : off = 0#12 := BitVec.eq_of_toNat_eq h
    subst this
    rfl

/-- A readable register's own offset selects it (20_memory.md R51). -/
@[simp] theorem selectRead_offsetOf (r : ReadReg) : selectRead (offsetOf r) .word = .ok r := by
  cases r with
  | status => rfl
  | dout => rfl
  | prgaIdx => rfl
  | sbox k => revert k; decide

end Sys2Proof.Machine
end

