-- ==== Sys2Proof/Laws/Commands.lean ====
section
/-! SUPPORT. What each command does, said once in terms of the shared operations, and the inversion of `exec`. -/

namespace Sys2Proof.Machine

/-! ### One lemma per command and outcome -/

theorem exec_nop (s : State) : exec .nop s = .next (clearDvalid s) := rfl

theorem exec_clr (s : State) : exec .clr s = .next (clearState s) := rfl

theorem exec_keyb_of_room (b : Byte) {s : State} (h : s.keylen.toNat < 256) :
    exec (.keyb b) s = .next (clearDvalid (appendKey b s)) := by
  simp only [exec, execKeyb, if_pos h]

theorem exec_keyb_of_full (b : Byte) {s : State} (h : ¬ s.keylen.toNat < 256) :
    exec (.keyb b) s = .next (clearDvalid (setOverflow s)) := by
  simp only [exec, execKeyb, if_neg h]

theorem exec_ksa_of_empty {s : State} (h : s.keylen = 0#9) :
    exec .ksa s = .next (raiseCmdError .invalidKey (clearSvalid s)) := by
  simp only [exec, execKsa, if_pos h]

theorem exec_ksa_of_key {s : State} (h : s.keylen ≠ 0#9) :
    exec .ksa s = .next (startKeystream (ksaTable fun n => keyByte s (n % s.keylen.toNat)) s) := by
  simp only [exec, execKsa, if_neg h]

theorem exec_gen_of_scheduled {s : State} (h : s.svalid = true) :
    exec .gen s = .next (latchResult (prgaStep s).2 (prgaStep s).1) := by
  simp only [exec, execGen, if_pos h]

theorem exec_gen_of_unscheduled {s : State} (h : s.svalid = false) :
    exec .gen s = .next (raiseCmdError .sequence s) := by
  simp only [exec, execGen, h, Bool.false_eq_true, if_false]

theorem exec_xor_of_scheduled (m : Byte) {s : State} (h : s.svalid = true) :
    exec (.xor m) s = .next (latchResult (m ^^^ (prgaStep s).2) (prgaStep s).1) := by
  simp only [exec, execXor, if_pos h]

theorem exec_xor_of_unscheduled (m : Byte) {s : State} (h : s.svalid = false) :
    exec (.xor m) s = .next (raiseCmdError .sequence s) := by
  simp only [exec, execXor, h, Bool.false_eq_true, if_false]

/-! ### Inversion -/

/-- The byte a successful GEN or XOR leaves in DOUT, from the keystream byte. -/
def resultByte : Instr → Byte → Byte
  | .xor m, ks => m ^^^ ks
  | .nop, ks => ks
  | .clr, ks => ks
  | .keyb _, ks => ks
  | .ksa, ks => ks
  | .gen, ks => ks

/-- The eight things a command can do from the state `s`. -/
inductive ExecCase (s : State) : Instr → State → Prop where
  | nop : ExecCase s .nop (clearDvalid s)
  | clr : ExecCase s .clr (clearState s)
  | keybRoom (b : Byte) (h : s.keylen.toNat < 256) : ExecCase s (.keyb b) (clearDvalid (appendKey b s))
  | keybFull (b : Byte) (h : ¬ s.keylen.toNat < 256) : ExecCase s (.keyb b) (clearDvalid (setOverflow s))
  | ksaEmpty (h : s.keylen = 0#9) : ExecCase s .ksa (raiseCmdError .invalidKey (clearSvalid s))
  | ksaKey (h : s.keylen ≠ 0#9) :
      ExecCase s .ksa (startKeystream (ksaTable fun n => keyByte s (n % s.keylen.toNat)) s)
  | generatorStep (i : Instr) (hi : usesGenerator i = true) (h : s.svalid = true) :
      ExecCase s i (latchResult (resultByte i (prgaStep s).2) (prgaStep s).1)
  | generatorRefused (i : Instr) (hi : usesGenerator i = true) (h : s.svalid = false) :
      ExecCase s i (raiseCmdError .sequence s)

/-- Every command completes (70_reset_and_hazards.md R220), in one of the eight ways. -/
theorem exec_next_cases (i : Instr) (s : State) : ∃ t, exec i s = .next t ∧ ExecCase s i t := by
  cases i with
  | nop => exact ⟨_, exec_nop s, .nop⟩
  | clr => exact ⟨_, exec_clr s, .clr⟩
  | keyb b =>
    by_cases h : s.keylen.toNat < 256
    · exact ⟨_, exec_keyb_of_room b h, .keybRoom b h⟩
    · exact ⟨_, exec_keyb_of_full b h, .keybFull b h⟩
  | ksa =>
    by_cases h : s.keylen = 0#9
    · exact ⟨_, exec_ksa_of_empty h, .ksaEmpty h⟩
    · exact ⟨_, exec_ksa_of_key h, .ksaKey h⟩
  | gen =>
    cases h : s.svalid with
    | true => exact ⟨_, exec_gen_of_scheduled h, .generatorStep _ rfl h⟩
    | false => exact ⟨_, exec_gen_of_unscheduled h, .generatorRefused _ rfl h⟩
  | xor m =>
    cases h : s.svalid with
    | true => exact ⟨_, exec_xor_of_scheduled m h, .generatorStep _ rfl h⟩
    | false => exact ⟨_, exec_xor_of_unscheduled m h, .generatorRefused _ rfl h⟩

theorem exec_answers_next (i : Instr) (s : State) : ∃ t, exec i s = .next t := by
  obtain ⟨t, h, -⟩ := exec_next_cases i s
  exact ⟨t, h⟩

/-- Inversion of a command that answers a next state. -/
theorem exec_cases {i : Instr} {s t : State} (h : exec i s = .next t) : ExecCase s i t := by
  obtain ⟨u, hu, hc⟩ := exec_next_cases i s
  rw [hu] at h
  cases h
  exact hc

end Sys2Proof.Machine
end

