-- ==== Sys2Proof/Laws/PackedTable.lean ====
section
/-! SUPPORT. A table packed into one bit vector, entry k in bits 8k+7 … 8k, on which Lean's kernel evaluates the key
schedule quickly; its agreement with the model's own tables. -/

namespace Sys2Proof.Machine

/-- Entry k of a packed table. -/
def packedRead (p : BitVec 2048) (k : Byte) : Byte := p.extractLsb' (8 * k.toNat) 8

/-- The packed identity table. -/
def packedIdentity : BitVec 2048 :=
  BitVec.ofNat 2048 ((List.range 256).foldr (fun k n => n * 256 + k) 0)

/-- Exchange two entries: each changes by the bits in which they differ. -/
def packedSwap (p : BitVec 2048) (a b : Byte) : BitVec 2048 :=
  let d := (packedRead p a ^^^ packedRead p b).setWidth 2048
  if a = b then p else p ^^^ d <<< (8 * a.toNat) ^^^ d <<< (8 * b.toNat)

/-- `ksaRounds` on a packed table. -/
def packedRounds (keyAt : Nat → Byte) : Nat → Byte × BitVec 2048
  | 0 => (0#8, packedIdentity)
  | n + 1 =>
    let (j, p) := packedRounds keyAt n
    let i := BitVec.ofNat 8 n
    let j' := j + packedRead p i + keyAt n
    (j', packedSwap p i j')

theorem packedRead_packedIdentity (k : Byte) : packedRead packedIdentity k = k := by
  revert k; decide +kernel

/-- An entry's difference lies in that entry's own bits. -/
theorem packedRead_xor_shift (p : BitVec 2048) (d a k : Byte) :
    packedRead (p ^^^ d.setWidth 2048 <<< (8 * a.toNat)) k = if k = a then packedRead p k ^^^ d else packedRead p k := by
  have hk := k.isLt
  have ha := a.isLt
  by_cases h : k = a
  · subst h
    simp only [if_true]
    apply BitVec.eq_of_getLsbD_eq
    intro l hl
    have h1 : 8 * k.toNat + l < 2048 := by omega
    have h3 : ¬ 8 * k.toNat + l < 8 * k.toNat := by omega
    have h4 : 8 * k.toNat + l - 8 * k.toNat = l := by omega
    simp [packedRead, hl, h1, h4]
  · rw [if_neg h]
    have hne : k.toNat ≠ a.toNat := fun e => h (BitVec.eq_of_toNat_eq e)
    apply BitVec.eq_of_getLsbD_eq
    intro l hl
    by_cases hlt : 8 * k.toNat + l < 8 * a.toNat
    · simp [packedRead, hl, hlt]
    · have : 8 ≤ 8 * k.toNat + l - 8 * a.toNat := by omega
      simp [packedRead, hl, BitVec.getLsbD_of_ge d _ this]

theorem packedSwap_isSwap {t : Table} {p : BitVec 2048} (h : ∀ k, readTable t k = packedRead p k) (a b k : Byte) :
    readTable (swapTable t a b) k = packedRead (packedSwap p a b) k := by
  obtain ⟨ga, gb, gne⟩ := swapTable_isSwap t a b
  by_cases hab : a = b
  · subst hab
    have : packedSwap p a a = p := by simp [packedSwap]
    rw [this, ← h]
    by_cases hk : k = a
    · rw [hk, ga]
    · exact gne k hk hk
  · simp only [packedSwap, if_neg hab, packedRead_xor_shift]
    by_cases hka : k = a
    · subst hka
      rw [if_neg hab, if_pos rfl, ga, h, ← BitVec.xor_assoc, BitVec.xor_self, BitVec.zero_xor]
    · by_cases hkb : k = b
      · subst hkb
        rw [if_pos rfl, if_neg hka, gb, h, BitVec.xor_comm (packedRead p a), ← BitVec.xor_assoc, BitVec.xor_self,
          BitVec.zero_xor]
      · rw [if_neg hkb, if_neg hka, gne k hka hkb, h]

theorem packedRounds_eq (keyAt : Nat → Byte) (n : Nat) :
    (packedRounds keyAt n).1 = (ksaRounds keyAt n).1 ∧
    ∀ k, readTable (ksaRounds keyAt n).2 k = packedRead (packedRounds keyAt n).2 k := by
  induction n with
  | zero => exact ⟨rfl, fun k => by simp [ksaRounds, packedRounds, packedRead_packedIdentity]⟩
  | succ n ih =>
    obtain ⟨hj, ht⟩ := ih
    have e : (packedRounds keyAt (n + 1)).1 = (ksaRounds keyAt (n + 1)).1 := by
      simp [packedRounds, ksaRounds, ksaRound, hj, ht]
    refine ⟨e, fun k => ?_⟩
    have := packedSwap_isSwap ht (BitVec.ofNat 8 n) (ksaRounds keyAt (n + 1)).1 k
    rw [← e] at this
    simpa [packedRounds, ksaRounds, ksaRound, hj, ht] using this

/-- An entry of the scheduled table, through the packed one. -/
theorem readTable_ksaTable (keyAt : Nat → Byte) (k : Byte) :
    readTable (ksaTable keyAt) k = packedRead (packedRounds keyAt 256).2 k :=
  (packedRounds_eq keyAt 256).2 k

end Sys2Proof.Machine
end

