-- ==== Sys2Proof/Laws/PerInstr.lean ====
section
/-! SUPPORT. Statements made per command: the fields of its word and its legality (30_encoding.md R80 to R86). -/

namespace Sys2Proof.Laws.EncodeLegal

/-- The command's word has RSVD zero, its opcode in OPC and its operand in OPND, and is legal. -/
def Statement (i : Instr) : Prop :=
  fieldRsvd (encode i) = 0#20 ∧ fieldOpc (encode i) = opcodeOf i ∧ fieldOpnd (encode i) = operandOf i ∧
    legalWord (encode i) = true

theorem nop : Statement .nop := by unfold Statement; decide

theorem clr : Statement .clr := by unfold Statement; decide

theorem keyb (b : Byte) : Statement (.keyb b) := by revert b; unfold Statement; decide

theorem ksa : Statement .ksa := by unfold Statement; decide

theorem gen : Statement .gen := by unfold Statement; decide

theorem xor (m : Byte) : Statement (.xor m) := by revert m; unfold Statement; decide

end Sys2Proof.Laws.EncodeLegal
end

