-- ==== Sys2Proof/Laws/Step.lean ====
section
/-! SUPPORT. What one step can do, said once: every case of the port, with what the step answers in each. -/

namespace Sys2Proof.Machine

/-- The event the host issues next is served in the state without it. -/
theorem step_of_pending {s : State} {e : HostEvent} {rest : List HostEvent} (h : s.pending = e :: rest) :
    step s = serveEvent e (withPending rest s) := by
  simp only [step, serveNext, h]

theorem step_of_idle {s : State} (h : s.pending = []) : step s = .next s := by
  simp only [step, serveNext, h]

/-- The six things a step with the event `e` can do, from the state `s` without that event. -/
inductive StepCase (s : State) : HostEvent → State → Prop where
  | command (off : Offset) (size : Size) (w : Word) (i : Instr) (u : State) (hsel : selectWrite off size = .ok ())
      (hdec : decode w = .ok i) (hexec : exec i s = .next u) :
      StepCase s (.access (.write off size w)) (withResponse .written u)
  | illegal (off : Offset) (size : Size) (w : Word) (e : DecodeError) (hsel : selectWrite off size = .ok ())
      (hdec : decode w = .error e) :
      StepCase s (.access (.write off size w)) (withResponse .written (raiseCmdError .illegalCommand s))
  | writeRefused (off : Offset) (size : Size) (w : Word) (c : BusCause) (hsel : selectWrite off size = .error c) :
      StepCase s (.access (.write off size w)) (withResponse .busError s)
  | read (off : Offset) (size : Size) (r : ReadReg) (hsel : selectRead off size = .ok r) :
      StepCase s (.access (.read off size)) (withResponse (.data (readRegister r s)) s)
  | readRefused (off : Offset) (size : Size) (c : BusCause) (hsel : selectRead off size = .error c) :
      StepCase s (.access (.read off size)) (withResponse .busError s)
  | reset (e : HostEvent) (he : isReset e = true) : StepCase s e (releaseReset s)

/-- An event always completes, in one of the six ways. -/
theorem serveEvent_cases (e : HostEvent) (s : State) : ∃ t, serveEvent e s = .next t ∧ StepCase s e t := by
  cases e with
  | reset => exact ⟨_, rfl, .reset _ rfl⟩
  | resetHolding a => exact ⟨_, rfl, .reset _ rfl⟩
  | access a =>
    cases a with
    | read off size =>
      simp only [serveEvent, serveAccess]
      cases h : selectRead off size with
      | ok r => exact ⟨_, rfl, .read off size r h⟩
      | error c => exact ⟨_, rfl, .readRefused off size c h⟩
    | write off size w =>
      simp only [serveEvent, serveAccess]
      cases h : selectWrite off size with
      | error c => exact ⟨_, rfl, .writeRefused off size w c h⟩
      | ok x =>
        simp only [performWord]
        cases hd : decode w with
        | error e => exact ⟨_, rfl, .illegal off size w e h hd⟩
        | ok i =>
          obtain ⟨u, hu⟩ := exec_answers_next i s
          exact ⟨_, by simp only [hu, answerWrite], .command off size w i u h hd hu⟩

/-- Inversion of a step with an event pending. -/
theorem step_cases {s t : State} {e : HostEvent} {rest : List HostEvent} (hp : s.pending = e :: rest)
    (h : step s = .next t) : StepCase (withPending rest s) e t := by
  obtain ⟨u, hu, hc⟩ := serveEvent_cases e (withPending rest s)
  rw [step_of_pending hp, hu] at h
  cases h
  exact hc

end Sys2Proof.Machine
end

