-- ==== Sys2Proof/Tests/Slice0.lean ====
section
/-! SUPPORT. Tests of one step each, expected values from 95_test_vectors.md and the rules' examples, and for every obligation
with hypotheses a state and operands that meet them. -/

namespace Sys2Proof.Tests

open Sys2Proof.Machine

/-! ### Ill-formed words, one for each check of WellFormed.lean (30_encoding.md R84 to R86) -/

theorem test_reserved_bit_refused : reservedBitsZero 0x00100300#32 = false ∧ legalWord 0x00100300#32 = false := by decide

theorem test_reserved_opcode_refused : opcodeDefined 0x00000600#32 = false ∧ legalWord 0x00000600#32 = false := by decide

theorem test_operand_refused : operandAllowed 0x00000301#32 = false ∧ legalWord 0x00000301#32 = false := by decide

theorem test_legal_words_pass : legalWord 0x00000000#32 = true ∧ legalWord 0x000002FF#32 = true ∧ legalWord 0x000005FF#32 = true := by
  decide

/-! ### Decode: words written out from 30_encoding.md R80, R83 (bits 31:12, OPC, OPND) -/

theorem test_decode_nop : decode 0b00000000000000000000_0000_00000000#32 = .ok .nop := by decide

theorem test_decode_clr : decode 0b00000000000000000000_0001_00000000#32 = .ok .clr := by decide

theorem test_decode_keyb : decode 0b00000000000000000000_0010_01001011#32 = .ok (.keyb 0x4B#8) := by decide

theorem test_decode_ksa : decode 0b00000000000000000000_0011_00000000#32 = .ok .ksa := by decide

theorem test_decode_gen : decode 0b00000000000000000000_0100_00000000#32 = .ok .gen := by decide

theorem test_decode_xor : decode 0b00000000000000000000_0101_01010000#32 = .ok (.xor 0x50#8) := by decide

/-- 95_test_vectors.md 2.1: the illegal words. -/
theorem test_decode_illegal :
    decode 0x00000001#32 = .error .operandNotZero ∧ decode 0x00000101#32 = .error .operandNotZero ∧
    decode 0x00000401#32 = .error .operandNotZero ∧ decode 0x00000FFF#32 = .error .reservedOpcode ∧
    decode 0x00001000#32 = .error .reservedBits ∧ decode 0x80000500#32 = .error .reservedBits ∧
    decode 0xFFFFFFFF#32 = .error .reservedBits := by decide

theorem test_decode_table_word :
    decodeTableWord 32 0x24B = some (.keyb 0x4B#8) ∧ decodeTableWord 32 0x600 = none ∧ decodeTableWord 40 0x100000000 = none := by
  decide

/-! ### One step on small states -/

/-- The state after the host writes one word to CMD. -/
def afterWord (w : Nat) (s : State) : State :=
  match step (s.withFetchWord 32 w) with
  | .next t => t
  | .fault _ => s
  | .refused _ => s

/-- The port's answer to one access. -/
def answer (a : Access) (s : State) : Option Response :=
  match step (withPending [.access a] s) with
  | .next t => t.response
  | .fault _ => none
  | .refused _ => none

/-- "Key" is held, nothing is scheduled. -/
def keyLoaded : State :=
  { State.reset with
    key := writeTable (writeTable (writeTable State.reset.key 0#8 0x4B#8) 1#8 0x65#8) 2#8 0x79#8, keylen := 3#9 }

/-- Scheduled, with the S-box entries that the first step after SETKEY "Key" uses (41_keystream.md R123's example). -/
def firstStep : State :=
  { keyLoaded with
    svalid := true
    sbox := writeTable (writeTable (writeTable identityTable 0x01#8 0x33#8) 0x33#8 0x4E#8) 0x81#8 0xEB#8 }

/-- Before GEN number 16 of 95_test_vectors.md V9. -/
def beforeSelfSwap : State :=
  { firstStep with
    i := 0x0F#8, j := 0xAC#8, sbox := writeTable (writeTable identityTable 0x10#8 0x64#8) 0xC8#8 0x66#8 }

/-- 43_control.md R160: STATUS 00030003 to 00030001, DOUT unchanged. -/
theorem test_nop : statusWord (afterWord 0x000 { firstStep with dvalid := true, dout := 0xEB#8 }) = 0x00030001#32 ∧
    (afterWord 0x000 { firstStep with dvalid := true, dout := 0xEB#8 }).dout = 0xEB#8 := by decide

/-- 95_test_vectors.md 2.7: STATUS 0001001F to 0; an illegal CLR word clears nothing. -/
theorem test_clr :
    statusWord (afterWord 0x100 { State.reset with
      keylen := 1#9, svalid := true, dvalid := true, keyerr := true, seqerr := true, cmderr := true }) = 0x00000000#32 ∧
    statusWord (afterWord 0x101 { State.reset with keyerr := true, seqerr := true, cmderr := true }) = 0x0000001C#32 := by decide

/-- 95_test_vectors.md 2.3: KEYB 4B from reset; KEYB 7F at KEYLEN = 255. -/
theorem test_keyb_appends :
    statusWord (afterWord 0x24B State.reset) = 0x00010000#32 ∧ keyByte (afterWord 0x24B State.reset) 0 = 0x4B#8 ∧
    statusWord (afterWord 0x27F { State.reset with keylen := 255#9 }) = 0x01000000#32 ∧
    keyByte (afterWord 0x27F { State.reset with keylen := 255#9 }) 255 = 0x7F#8 := by decide

/-- 95_test_vectors.md 2.3: KEYB AA at KEYLEN = 256 is discarded. -/
theorem test_keyb_overflow : statusWord (afterWord 0x2AA { State.reset with keylen := 256#9 }) = 0x01000020#32 := by decide

/-- 95_test_vectors.md 2.4: KSA with no key. -/
theorem test_ksa_empty : statusWord (afterWord 0x300 State.reset) = 0x00000004#32 := by decide

/-- 95_test_vectors.md table T1, rows 00 and F0: the S-box of "Key". -/
theorem test_ksa_key : ∃ t, exec .ksa keyLoaded = .next t ∧
    ((List.range 16).map fun k => readTable t.sbox (BitVec.ofNat 8 k)) =
      [0x4B#8, 0x33#8, 0x84#8, 0x9D#8, 0xC0#8, 0xC8#8, 0x1D#8, 0xA8#8, 0x4A#8, 0xF3#8, 0x83#8, 0xE4#8, 0x12#8, 0x70#8,
        0x82#8, 0x90#8] ∧
    ((List.range 16).map fun k => readTable t.sbox (BitVec.ofNat 8 (240 + k))) =
      [0xF8#8, 0x7D#8, 0xB1#8, 0xA6#8, 0xE8#8, 0x78#8, 0x6B#8, 0x63#8, 0xF9#8, 0xDD#8, 0x34#8, 0x7C#8, 0x0A#8, 0xD3#8,
        0x3D#8, 0x93#8] := by
  refine ⟨_, exec_ksa_of_key (by decide), ?_⟩
  simp only [startKeystream_sbox, readTable_ksaTable]
  decide +kernel

/-- 95_test_vectors.md 2.4: the first iterations for "Key": j = 4B, B1, 2C, 7A. -/
theorem test_ksa_first_rounds :
    (List.range 5).map (fun n => (ksaRounds (fun k => keyByte keyLoaded (k % 3)) n).1) =
      [0x00#8, 0x4B#8, 0xB1#8, 0x2C#8, 0x7A#8] := by decide +kernel

/-- 41_keystream.md R123's example: I = 01, J = 33, DOUT = EB, STATUS 00030003. -/
theorem test_gen : readRegister .prgaIdx (afterWord 0x400 firstStep) = 0x00003301#32 ∧
    (afterWord 0x400 firstStep).dout = 0xEB#8 ∧ statusWord (afterWord 0x400 firstStep) = 0x00030003#32 ∧
    statusWord (afterWord 0x400 State.reset) = 0x00000008#32 := by decide +kernel

/-- 95_test_vectors.md V9: a self-swap; PRGA_IDX 00001010, SBOX[10] = 64, keystream byte 66. -/
theorem test_gen_self_swap : readRegister .prgaIdx (afterWord 0x400 beforeSelfSwap) = 0x00001010#32 ∧
    readRegister (.sbox 0x10#8) (afterWord 0x400 beforeSelfSwap) = 0x00000064#32 ∧
    (afterWord 0x400 beforeSelfSwap).dout = 0x66#8 := by decide +kernel

/-- 42_combine.md R141's example: XOR 50 gives BB; from reset a sequence error. -/
theorem test_xor : (afterWord 0x550 firstStep).dout = 0xBB#8 ∧ statusWord (afterWord 0x541 State.reset) = 0x00000008#32 := by
  decide +kernel

/-- 95_test_vectors.md P3 step 5: RSVD ≠ 0 with KEYLEN = 0 raises CMDERR only. -/
theorem test_illegal_before_command : statusWord (afterWord 0x00100300 State.reset) = 0x00000010#32 := by decide

/-- 95_test_vectors.md 2.2: the bus accesses after SETKEY "Wiki", one XOR and one GEN. -/
def wiki : State :=
  { State.reset with keylen := 4#9, i := 0x02#8, j := 0xCE#8, dout := 0x44#8, svalid := true, dvalid := true }

theorem test_reads : answer (.read 0x004#12 .word) wiki = some (.data 0x00040003#32) ∧
    answer (.read 0x008#12 .word) wiki = some (.data 0x00000044#32) ∧
    answer (.read 0x00C#12 .word) wiki = some (.data 0x0000CE02#32) ∧
    answer (.read 0x400#12 .word) State.reset = some (.data 0x00000000#32) := by decide

theorem test_refused_reads : answer (.read 0x000#12 .word) wiki = some .busError ∧
    answer (.read 0x001#12 .word) wiki = some .busError ∧ answer (.read 0x010#12 .word) wiki = some .busError ∧
    answer (.read 0x3FC#12 .word) wiki = some .busError ∧ answer (.read 0x800#12 .word) wiki = some .busError ∧
    answer (.read 0xFFC#12 .word) wiki = some .busError ∧ answer (.read 0x004#12 .byte) wiki = some .busError := by decide

theorem test_refused_writes : answer (.write 0x004#12 .word 0#32) wiki = some .busError ∧
    answer (.write 0x008#12 .word 0#32) wiki = some .busError ∧ answer (.write 0x400#12 .word 0#32) wiki = some .busError ∧
    answer (.write 0x000#12 .byte 0#32) wiki = some .busError ∧ answer (.write 0x000#12 .half 0#32) wiki = some .busError := by
  decide

/-- The causes of refusal, by name (20_memory.md R52 to R54). -/
theorem test_refusal_causes : selectRead 0x004#12 .dword = .error .size ∧ selectRead 0x006#12 .word = .error .alignment ∧
    selectRead 0x010#12 .word = .error .unmapped ∧ selectRead 0x000#12 .word = .error .direction ∧
    selectWrite 0x7FC#12 .word = .error .direction ∧ selectRead 0x7FC#12 .word = .ok (.sbox 0xFF#8) := by decide

/-- The source's functions on the same data: the first key iterations of 95_test_vectors.md 2.4, and the first keystream
byte EB of "Key" with i = 01, j = 33 (41_keystream.md R123's example). -/
theorem test_source : ((List.range 5).map fun n => (sourceKsa [0x4B#8, 0x65#8, 0x79#8] n).1) =
      [0x00#8, 0x4B#8, 0xB1#8, 0x2C#8, 0x7A#8] ∧
    (sourceNext ⟨firstStep.sbox, 0x00#8, 0x00#8⟩).2 = 0xEB#8 ∧ (sourceNext ⟨firstStep.sbox, 0x00#8, 0x00#8⟩).1.i = 0x01#8 ∧
    (sourceNext ⟨firstStep.sbox, 0x00#8, 0x00#8⟩).1.j = 0x33#8 := by decide +kernel

/-! ### The assembler (30_encoding.md R89, R90) -/

/-- `KEYB 0x4B ; key` is the write of 0000024B (95_test_vectors.md P1), `RD SBOX[16]` the read of 0x440 (P3). -/
theorem test_asm_lines :
    assembleText [['K', 'E', 'Y', 'B', ' ', '0', 'x', '4', 'B', ' ', ';', ' ', 'k'],
      ['R', 'D', ' ', 'S', 'B', 'O', 'X', '[', '1', '6', ']']] =
      some [.write 0x000#12 .word 0x0000024B#32, .read 0x440#12 .word] ∧
    assembleText [['K', 'E', 'Y', 'B', ' ', '2', '5', '6']] = none := by decide

/-- `SETKEY "Key"` is CLR, three KEYBs and KSA; `ENC 'p'` is XOR 70 and RD DOUT (95_test_vectors.md P1, P5). -/
theorem test_asm_pseudo :
    assembleText [['S', 'E', 'T', 'K', 'E', 'Y', ' ', '"', 'K', 'e', 'y', '"'], [], ['E', 'N', 'C', ' ', '\'', 'p', '\'']] =
      some [cmdWrite 0x100#32, cmdWrite 0x24B#32, cmdWrite 0x265#32, cmdWrite 0x279#32, cmdWrite 0x300#32,
        cmdWrite 0x570#32, regRead .dout] := by decide

/-! ### Witnesses: each obligation's hypotheses, met together -/

/-- A host about to issue one event. -/
def about (e : HostEvent) (s : State) : State := withPending [e] s

theorem witness_LegalWordIsTheEncodingOfItsCommand : decode 0x000005FF#32 = .ok (.xor 0xFF#8) := by decide

theorem witness_OpcodeMapByMatchAndMask : 6 ≤ ((0x00000600#32 : Word).extractLsb' 8 4).toNat ∧
    6 ≤ ((0x00000FFF#32 : Word).extractLsb' 8 4).toNat := by decide

theorem witness_StepRunsTheWrittenCommand :
    (about (.access (.write 0x000#12 .word 0x00000400#32)) firstStep).pending =
      .access (.write 0x000#12 .word 0x00000400#32) :: [] ∧ decode 0x00000400#32 = .ok .gen := by decide

theorem witness_IllegalWordRaisesOnlyCmderr :
    (about (.access (.write 0x000#12 .word 0x00000600#32)) wiki).pending =
      .access (.write 0x000#12 .word 0x00000600#32) :: [] ∧ decode 0x00000600#32 = .error .reservedOpcode := by decide

theorem witness_NothingPendingNothingChanges : State.reset.pending = [] := rfl

theorem witness_OnlyCommandWritesAndResetChangeTheTuple :
    ∃ t, writesCmd (.access (.read 0x004#12 .word)) = false ∧ isReset (.access (.read 0x004#12 .word)) = false ∧
      step (about (.access (.read 0x004#12 .word)) wiki) = .next t := ⟨_, by decide, by decide, rfl⟩

/-- Both clauses: a reset between accesses and one that finds an access held. -/
theorem witness_ResetAtAnyTimeGivesTheResetState :
    (about .reset wiki).pending = .reset :: [] ∧
    (about (.resetHolding (.write 0x000#12 .word 0x300#32)) wiki).pending = .resetHolding (.write 0x000#12 .word 0x300#32) :: [] :=
  ⟨rfl, rfl⟩

/-- Both clauses, at the boundaries of the map. -/
theorem witness_BusErrorExactlyWhenRefused :
    Refused (.read 0x010#12 .word) ∧ Refused (.read 0x3FC#12 .word) ∧ Refused (.read 0x800#12 .word) ∧
    Refused (.read 0x000#12 .word) ∧ Refused (.read 0x402#12 .word) ∧ Refused (.write 0x004#12 .word 0#32) ∧
    Refused (.write 0x000#12 .half 0#32) ∧
    ¬ Refused (.read 0x00C#12 .word) ∧ ¬ Refused (.read 0x400#12 .word) ∧ ¬ Refused (.read 0x7FC#12 .word) ∧
    ¬ Refused (.write 0x000#12 .word 0#32) := by
  simp [Refused]

theorem witness_UnmappedOffsetsAndTheUnreadableKey :
    (0x010 ≤ (0x010#12 : Offset).toNat ∧ (0x3FC#12 : Offset).toNat ≤ 0x3FC) ∧
    (0x800 ≤ (0x800#12 : Offset).toNat ∧ (0xFFC#12 : Offset).toNat ≤ 0xFFC) ∧
    (about (.access (.read 0x010#12 .word)) wiki).pending = .access (.read 0x010#12 .word) :: [] := by decide

theorem witness_ReadsHaveNoSideEffects :
    (about (.access (.read 0x008#12 .word)) wiki).pending = .access (.read 0x008#12 .word) :: [] ∧
    SameTuple (about (.access (.read 0x008#12 .word)) wiki) (about (.access (.read 0x008#12 .word)) { wiki with resets := 1 }) :=
  ⟨rfl, by simp [SameTuple, about, wiki]⟩

theorem witness_StatusReadsFlagsAndKeylen :
    (about (.access (.read 0x004#12 .word)) State.reset).pending = .access (.read 0x004#12 .word) :: [] ∧
    (about (.access (.read 0x004#12 .word)) State.reset).Inv :=
  ⟨rfl, by constructor <;> simp [about, State.reset]⟩

theorem witness_DoutAndIndicesRead :
    (about (.access (.read 0x008#12 .word)) wiki).pending = .access (.read 0x008#12 .word) :: [] ∧
    (about (.access (.read 0x00C#12 .word)) wiki).pending = .access (.read 0x00C#12 .word) :: [] := ⟨rfl, rfl⟩

/-- The first and the last entry of the window, scheduled and not. -/
theorem witness_SboxWindowRead :
    (0x400#12 : Offset).toNat = 0x400 + 4 * (0x00#8 : Byte).toNat ∧ (0x7FC#12 : Offset).toNat = 0x400 + 4 * (0xFF#8 : Byte).toNat ∧
    wiki.svalid = true ∧ State.reset.svalid = false ∧
    (about (.access (.read 0x7FC#12 .word)) wiki).pending = .access (.read 0x7FC#12 .word) :: [] := by decide

theorem witness_WindowSitsAtTheBase : Config.rc4Base + 4096 ≤ Config.rc4Base + 4096 := Nat.le_refl _

/-- KEYLEN 0 and 255 (room) and 256 (full). -/
theorem witness_KeybAppendsOrOverflows : State.reset.keylen.toNat < 256 ∧
    ({ State.reset with keylen := 255#9 } : State).keylen.toNat < 256 ∧
    256 ≤ ({ State.reset with keylen := 256#9 } : State).keylen.toNat := by decide

/-- KEYLEN 1 and 256 (a key), 0 (none). -/
theorem witness_KsaSchedulesOrRejectsTheEmptyKey : ({ State.reset with keylen := 1#9 } : State).keylen ≠ 0#9 ∧
    ({ State.reset with keylen := 256#9 } : State).keylen ≠ 0#9 ∧ State.reset.keylen = 0#9 := by decide

/-- Two states that hold the same key and differ in S and in a key byte beyond it. -/
def keyLoadedOther : State := { keyLoaded with sbox := identityTable, key := writeTable keyLoaded.key 3#8 0xFF#8, i := 7#8 }

theorem keyLoaded_sameKey : SameKey keyLoaded keyLoadedOther := by
  refine ⟨rfl, fun n hn _ => ?_⟩
  have hn' : n < 3 := hn
  interval_cases n <;> decide

theorem witness_KsaDependsOnTheHeldKeyOnly : SameKey keyLoaded keyLoadedOther ∧ keyLoaded.keylen ≠ 0#9 :=
  ⟨keyLoaded_sameKey, by decide⟩

theorem witness_KsaLeavesAPermutation : keyLoaded.keylen ≠ 0#9 := by decide

/-- The key 01 02 and the key 01 02 01 02 (40_key_schedule.md R106). -/
def keyTwo : State := { State.reset with key := writeTable (writeTable State.reset.key 0#8 1#8) 1#8 2#8, keylen := 2#9 }

/-- See `keyTwo`. -/
def keyTwoTwice : State := { keyTwo with key := writeTable (writeTable keyTwo.key 2#8 1#8) 3#8 2#8, keylen := 4#9 }

theorem witness_RepeatedKeySchedulesAlike :
    1 ≤ keyTwo.keylen.toNat ∧ 1 ≤ 2 ∧ 2 * keyTwo.keylen.toNat ≤ 256 ∧ keyTwoTwice.keylen.toNat = 2 * keyTwo.keylen.toNat ∧
    ∀ n, n < keyTwoTwice.keylen.toNat → keyByte keyTwoTwice n = keyByte keyTwo (n % keyTwo.keylen.toNat) := by
  refine ⟨by decide, by decide, by decide, by decide, fun n hn => ?_⟩
  have hn' : n < 4 := hn
  interval_cases n <;> decide

theorem witness_LongKeysScheduleLikeTheirFirst256Bytes : 256 < (List.replicate 257 0xAA#8 : List Byte).length := by
  rw [List.length_replicate]; decide

/-- The shortest and the longest key. -/
theorem witness_KeyBytesAreHeldInOrder : 1 ≤ ([0x03#8] : List Byte).length ∧ ([0x03#8] : List Byte).length ≤ 256 ∧
    (List.replicate 256 0xAA#8 : List Byte).length ≤ 256 := by
  rw [List.length_replicate]; decide

theorem witness_GenRunsOneGeneratorStep : firstStep.svalid = true ∧ State.reset.svalid = false := by decide

theorem witness_XorCombinesOneByte : firstStep.svalid = true ∧ State.reset.svalid = false := by decide

/-- A scheduled state whose S-box is a permutation. -/
def scheduled : State := { keyLoaded with sbox := identityTable, svalid := true }

theorem witness_GeneratorKeepsThePermutation :
    usesGenerator .gen = true ∧ usesGenerator (.xor 0x50#8) = true ∧ scheduled.svalid = true ∧ IsPermutation scheduled.sbox :=
  ⟨rfl, rfl, rfl, identityTable_isPermutation⟩

/-- A stream of GEN, KEYB, an illegal word, a read, NOP and XOR. -/
def stream : List HostEvent :=
  [.access (.write 0x000#12 .word 0x400#32), .access (.write 0x000#12 .word 0x211#32), .access (.write 0x000#12 .word 0x600#32),
    .access (.read 0x008#12 .word), .access (.write 0x000#12 .word 0x000#32), .access (.write 0x000#12 .word 0x550#32)]

theorem witness_StreamingEqualsTheSourceKeystream :
    keyLoaded.keylen ≠ 0#9 ∧ keyLoaded.keylen.toNat ≤ 256 ∧ (∃ t, exec .ksa keyLoaded = .next t) ∧
    (∀ e ∈ stream, keepsKeystream e = true) ∧ generatorCommands stream ≤ 2 :=
  ⟨by decide, by decide, exec_answers_next _ _, by decide, by decide⟩

theorem witness_IndexCountsGeneratorSteps : firstStep.svalid = true ∧ firstStep.i = 0#8 := by decide

theorem witness_KeystreamDependsOnTheKeyOnly :
    SameKey keyLoaded keyLoadedOther ∧ keyLoaded.keylen ≠ 0#9 ∧ (∃ t, exec .ksa keyLoaded = .next t) ∧
    ∃ t, exec .ksa keyLoadedOther = .next t :=
  ⟨keyLoaded_sameKey, by decide, exec_answers_next _ _, exec_answers_next _ _⟩

/-- A non-empty key, for the three obligations about cipher; the empty key is the other clause of the first. -/
theorem witness_CipherProcedureIsTheSourceCipher : ([0x4B#8] : List Byte) ≠ [] ∧ ([] : List Byte) = [] := by decide

theorem witness_CipherIsSelfInverse : ([0x4B#8] : List Byte) ≠ [] := by decide

theorem witness_CipherKeepsTheLength : ([0x4B#8] : List Byte) ≠ [] ∧ ([] : List Byte) = [] := by decide

theorem witness_SequenceErrorExactlyWhenUnscheduled :
    usesGenerator .gen = true ∧ usesGenerator (.xor 0x41#8) = true ∧ State.reset.svalid = false ∧ firstStep.svalid = true := by decide

/-- A step with an event pending, for the obligations about the flags after an event: a command and a reset. -/
theorem witness_StickyFlagsRiseByTheirCauseAndFallByClrOrReset :
    (∃ t, step (about (.access (.write 0x000#12 .word 0x300#32)) State.reset) = .next t) ∧ ∃ t, step (about .reset wiki) = .next t :=
  ⟨⟨_, rfl⟩, ⟨_, rfl⟩⟩

/-- The three clauses: a command, a reset, an access that is neither. -/
theorem witness_DvalidReportsTheLastCommand :
    (∃ t, step (about (.access (.write 0x000#12 .word 0x000#32)) wiki) = .next t) ∧
    writesCmd (.access (.write 0x000#12 .word 0x000#32)) = true ∧ isReset .reset = true ∧
    writesCmd (.access (.write 0x004#12 .word 0x000#32)) = false ∧ isReset (.access (.write 0x004#12 .word 0x000#32)) = false :=
  ⟨⟨_, rfl⟩, by decide, rfl, by decide, by decide⟩

theorem witness_SvalidRisesByKsaOnly : ∃ t, step (about (.access (.write 0x000#12 .word 0x100#32)) wiki) = .next t := ⟨_, rfl⟩

theorem witness_EachPartHasItsWriters :
    isReset (.access (.write 0x000#12 .word 0x000#32)) = false ∧ commandOf (.access (.write 0x000#12 .word 0x000#32)) = some .nop ∧
    ∃ t, step (about (.access (.write 0x000#12 .word 0x000#32)) wiki) = .next t := ⟨rfl, by decide, _, rfl⟩

theorem witness_ErrorsDoNotBlockCommands : SameButStickyFlags wiki { wiki with keyerr := true, cmderr := true } := by
  simp [SameButStickyFlags]

/-- The three clauses: refused; accepted and illegal; accepted and legal. -/
theorem witness_BusCheckThenDecodeThenCommand :
    (about (.access (.write 0x004#12 .word 0x600#32)) wiki).pending = .access (.write 0x004#12 .word 0x600#32) :: [] ∧
    Refused (.write 0x004#12 .word 0x600#32) ∧ ¬ Refused (.write 0x000#12 .word 0x600#32) ∧
    decode 0x600#32 = .error .reservedOpcode ∧ decode 0x300#32 = .ok .ksa :=
  ⟨rfl, by simp [Refused], by simp [Refused], by decide, by decide⟩

theorem witness_EveryStepKeepsTheInvariants : State.reset.Inv ∧ ∃ t, step State.reset = .next t :=
  ⟨by constructor <;> simp [State.reset], _, rfl⟩

theorem witness_ReachableStatesMeetTheInvariants :
    ∃ t, Sys2Proof.core.run 1 { State.reset with sbox := identityTable, key := identityTable, pending := stream } = .next t :=
  ⟨_, rfl⟩

theorem witness_UnobservableArraysNeverShow : ObsEq State.reset { State.reset with sbox := identityTable, key := identityTable } := by
  constructor <;> simp [State.reset]

theorem witness_CommandsLeaveTheSurroundings : ∃ t, exec .nop wiki = .next t := ⟨_, rfl⟩

theorem witness_FrameOfNopAndClr : (∃ t, exec .nop wiki = .next t) ∧ ∃ t, exec .clr wiki = .next t := ⟨⟨_, rfl⟩, ⟨_, rfl⟩⟩

/-- With room and full. -/
theorem witness_FrameOfKeyb : (∃ t, exec (.keyb 0x11#8) wiki = .next t) ∧ wiki.keylen.toNat < 256 ∧
    256 ≤ ({ wiki with keylen := 256#9 } : State).keylen.toNat := ⟨exec_answers_next _ _, by decide, by decide⟩

/-- With a key and without. -/
theorem witness_FrameOfKsa : (∃ t, exec .ksa wiki = .next t) ∧ wiki.keylen ≠ 0#9 ∧ State.reset.keylen = 0#9 :=
  ⟨exec_answers_next _ _, by decide, by decide⟩

/-- Scheduled and not. -/
theorem witness_FrameOfGenAndXor : usesGenerator .gen = true ∧ (∃ t, exec .gen wiki = .next t) ∧ wiki.svalid = true ∧
    State.reset.svalid = false := ⟨rfl, exec_answers_next _ _, rfl, rfl⟩

theorem witness_AssemblerLinesAreAccesses : 256 ≤ 256 := Nat.le_refl _

end Sys2Proof.Tests
end

section
/-! SUPPORT. The step seen from the state (10_state.md): what an event is to the CORE, and what each command leaves in each
flag and in each part of the tuple. -/

namespace Sys2Proof.Machine

/-! ### Events -/

/-- What an event is to the state: a command, an illegal word, another access, or a reset. `StepCase` distinguishes the
accesses that leave the tuple alone; here they are one case, and each case says what `commandOf`, `writesCmd` and `isReset`
make of the event. -/
inductive EventCase (s : State) (e : HostEvent) : State → Prop where
  | command (i : Instr) (u : State) (hcmd : commandOf e = some i) (hw : writesCmd e = true) (hr : isReset e = false)
      (hexec : ExecCase s i u) : EventCase s e (withResponse .written u)
  | illegal (hcmd : commandOf e = none) (hw : writesCmd e = true) (hr : isReset e = false) :
      EventCase s e (withResponse .written (raiseCmdError .illegalCommand s))
  | other (r : Response) (hcmd : commandOf e = none) (hw : writesCmd e = false) (hr : isReset e = false) :
      EventCase s e (withResponse r s)
  | reset (hcmd : commandOf e = none) (hw : writesCmd e = false) (hr : isReset e = true) :
      EventCase s e (releaseReset s)

theorem isReset_iff (e : HostEvent) : isReset e = true ↔ e = .reset ∨ ∃ a, e = .resetHolding a := by
  cases e <;> simp [isReset]

theorem commandOf_of_isReset {e : HostEvent} (h : isReset e = true) : commandOf e = none := by
  obtain rfl | ⟨a, rfl⟩ := (isReset_iff e).mp h <;> rfl

theorem writesCmd_of_isReset {e : HostEvent} (h : isReset e = true) : writesCmd e = false := by
  obtain rfl | ⟨a, rfl⟩ := (isReset_iff e).mp h <;> rfl

theorem serveEvent_of_isReset {e : HostEvent} (h : isReset e = true) (s : State) :
    serveEvent e s = .next (releaseReset s) := by
  obtain rfl | ⟨a, rfl⟩ := (isReset_iff e).mp h <;> rfl

theorem StepCase.eventCase {s t : State} {e : HostEvent} (h : StepCase s e t) : EventCase s e t := by
  cases h with
  | command off size w i u hsel hdec hexec =>
    exact .command i u (by simp [commandOf, hsel, hdec]) (by simp [writesCmd, hsel]) rfl (exec_cases hexec)
  | illegal off size w err hsel hdec =>
    exact .illegal (by simp [commandOf, hsel, hdec]) (by simp [writesCmd, hsel]) rfl
  | writeRefused off size w c hsel =>
    exact .other _ (by simp [commandOf, hsel]) (by simp [writesCmd, hsel]) rfl
  | read off size r hsel => exact .other _ rfl rfl rfl
  | readRefused off size c hsel => exact .other _ rfl rfl rfl
  | reset _ he => exact .reset (commandOf_of_isReset he) (writesCmd_of_isReset he) he

/-- Inversion of a step with an event pending, by what the event is to the state. -/
theorem step_eventCase {s t : State} {e : HostEvent} {rest : List HostEvent} (hp : s.pending = e :: rest)
    (h : step s = .next t) : EventCase (withPending rest s) e t :=
  (step_cases hp h).eventCase

/-! ### What a command leaves, flag by flag and part by part -/

theorem usesGenerator_iff (i : Instr) : usesGenerator i = true ↔ i = .gen ∨ ∃ m, i = .xor m := by
  cases i <;> simp [usesGenerator]

namespace ExecCase

variable {s t : State} {i : Instr}

theorem keyerr_iff (h : ExecCase s i t) :
    t.keyerr = true ↔ i ≠ .clr ∧ (s.keyerr = true ∨ (i = .ksa ∧ s.keylen = 0#9)) := by
  cases h with
  | generatorStep _ hi | generatorRefused _ hi => obtain rfl | ⟨m, rfl⟩ := (usesGenerator_iff i).mp hi <;> simp
  | ksaEmpty hk | ksaKey hk => simp [hk]
  | nop | clr | keybRoom | keybFull => simp

theorem seqerr_iff (h : ExecCase s i t) :
    t.seqerr = true ↔ i ≠ .clr ∧ (s.seqerr = true ∨ (usesGenerator i = true ∧ s.svalid = false)) := by
  cases h with
  | generatorStep _ hi hs | generatorRefused _ hi hs =>
    obtain rfl | ⟨m, rfl⟩ := (usesGenerator_iff i).mp hi <;> simp [usesGenerator, hs]
  | nop | clr | keybRoom | keybFull | ksaEmpty | ksaKey => simp [usesGenerator]

theorem cmderr_iff (h : ExecCase s i t) : t.cmderr = true ↔ i ≠ .clr ∧ s.cmderr = true := by
  cases h with
  | generatorStep _ hi | generatorRefused _ hi => obtain rfl | ⟨m, rfl⟩ := (usesGenerator_iff i).mp hi <;> simp
  | nop | clr | keybRoom | keybFull | ksaEmpty | ksaKey => simp

theorem kovf_iff (h : ExecCase s i t) :
    t.kovf = true ↔ i ≠ .clr ∧ (s.kovf = true ∨ ((∃ b, i = .keyb b) ∧ 256 ≤ s.keylen.toNat)) := by
  cases h with
  | generatorStep _ hi | generatorRefused _ hi => obtain rfl | ⟨m, rfl⟩ := (usesGenerator_iff i).mp hi <;> simp
  | keybRoom b hk | keybFull b hk => simp [Nat.not_lt.mp, hk]
  | nop | clr | ksaEmpty | ksaKey => simp

theorem dvalid_iff (h : ExecCase s i t) : t.dvalid = true ↔ usesGenerator i = true ∧ s.svalid = true := by
  cases h with
  | generatorStep _ hi hs | generatorRefused _ hi hs => simp [hi, hs]
  | nop | clr | keybRoom | keybFull | ksaEmpty | ksaKey => simp [usesGenerator]

theorem svalid_iff (h : ExecCase s i t) :
    t.svalid = true ↔ (i = .ksa ∧ s.keylen ≠ 0#9) ∨ (i ≠ .ksa ∧ i ≠ .clr ∧ s.svalid = true) := by
  cases h with
  | generatorStep _ hi | generatorRefused _ hi => obtain rfl | ⟨m, rfl⟩ := (usesGenerator_iff i).mp hi <;> simp
  | ksaEmpty hk | ksaKey hk => simp [hk]
  | nop | clr | keybRoom | keybFull => simp

theorem sbox_eq (h : ExecCase s i t) (hk : i ≠ .ksa) (hg : usesGenerator i = false) : t.sbox = s.sbox := by
  cases h with
  | generatorStep _ hi => simp [hi] at hg
  | ksaKey => exact absurd rfl hk
  | nop | clr | keybRoom | keybFull | ksaEmpty | generatorRefused => simp

theorem key_eq (h : ExecCase s i t) (hk : ∀ b, i ≠ .keyb b) : t.key = s.key := by
  cases h with
  | keybRoom b => exact absurd rfl (hk b)
  | nop | clr | keybFull | ksaEmpty | ksaKey | generatorStep | generatorRefused => simp

theorem keylen_eq (h : ExecCase s i t) (hc : i ≠ .clr) (hk : ∀ b, i ≠ .keyb b) : t.keylen = s.keylen := by
  cases h with
  | clr => exact absurd rfl hc
  | keybRoom b => exact absurd rfl (hk b)
  | nop | keybFull | ksaEmpty | ksaKey | generatorStep | generatorRefused => simp

theorem generator_eq (h : ExecCase s i t) (hk : i ≠ .ksa) (hc : i ≠ .clr) (hg : usesGenerator i = false) :
    t.i = s.i ∧ t.j = s.j ∧ t.dout = s.dout := by
  cases h with
  | generatorStep _ hi => simp [hi] at hg
  | clr => exact absurd rfl hc
  | ksaKey => exact absurd rfl hk
  | nop | keybRoom | keybFull | ksaEmpty | generatorRefused => simp

theorem sameSurroundings (h : ExecCase s i t) : SameSurroundings s t := by
  cases h <;> simp [SameSurroundings]

end ExecCase

/-! ### The obligations on flags, writers and surroundings -/

/-- Settles O44, by what the event is to the state and, for a command, the flag lemmas of `ExecCase`. -/
theorem stickyFlagsRiseByTheirCauseAndFallByClrOrReset :
    Obligations.StickyFlagsRiseByTheirCauseAndFallByClrOrReset := by
  unfold Obligations.StickyFlagsRiseByTheirCauseAndFallByClrOrReset
  refine ⟨⟨rfl, rfl, rfl⟩, fun s t e rest hp h => ?_⟩
  cases step_eventCase hp h with
  | command i u hcmd hw hr hexec =>
    simp [hcmd, hw, hr, hexec.keyerr_iff, hexec.seqerr_iff, hexec.cmderr_iff, hexec.kovf_iff]
  | illegal hcmd hw hr => simp [hcmd, hw, hr]
  | other r hcmd hw hr => simp [hcmd, hw, hr]
  | reset hcmd hw hr => simp [hr]

/-- Settles O45, by what the event is to the state and `ExecCase.dvalid_iff`. -/
theorem dvalidReportsTheLastCommand : Obligations.DvalidReportsTheLastCommand := by
  unfold Obligations.DvalidReportsTheLastCommand
  intro s t e rest hp h
  cases step_eventCase hp h with
  | command i u hcmd hw hr hexec => simp [hcmd, hw, hr, hexec.dvalid_iff]
  | illegal hcmd hw hr => simp [hcmd, hw, hr]
  | other r hcmd hw hr => simp [hw, hr]
  | reset hcmd hw hr => simp [hw, hr]

/-- Settles O46, by what the event is to the state and `ExecCase.svalid_iff`. -/
theorem svalidRisesByKsaOnly : Obligations.SvalidRisesByKsaOnly := by
  unfold Obligations.SvalidRisesByKsaOnly
  intro s t e rest hp h
  cases step_eventCase hp h with
  | command i u hcmd hw hr hexec => simp [hcmd, hr, hexec.svalid_iff]
  | illegal hcmd hw hr => simp [hcmd, hr]
  | other r hcmd hw hr => simp [hcmd, hr]
  | reset hcmd hw hr => simp [hcmd, hr]

/-- Settles O47, by what the event is to the state and the frame lemmas of `ExecCase`. -/
theorem eachPartHasItsWriters : Obligations.EachPartHasItsWriters := by
  unfold Obligations.EachPartHasItsWriters
  intro s t e rest hp hreset h
  cases step_eventCase hp h with
  | command i u hcmd hw hr hexec =>
    simp only [hcmd, ne_eq, Option.some.injEq, forall_eq']
    exact ⟨fun ⟨hk, hg⟩ => hexec.sbox_eq hk hg, hexec.key_eq, fun ⟨hc, hk⟩ => hexec.keylen_eq hc hk,
      fun ⟨hk, hc, hg⟩ => hexec.generator_eq hk hc hg⟩
  | illegal | other => simp
  | reset hcmd hw hr => simp [hr] at hreset

/-- Settles O54, by inversion of `exec`. -/
theorem commandsLeaveTheSurroundings : Obligations.CommandsLeaveTheSurroundings := by
  unfold Obligations.CommandsLeaveTheSurroundings
  exact fun i s t h => (exec_cases h).sameSurroundings

end Sys2Proof.Machine
end

section
/-! SUPPORT. The invariants of reachable states (10_state.md R22, R25, R42): each command, each event and so each run
keeps them. -/

namespace Sys2Proof.Machine

/-! ### Permutations (40_key_schedule.md R105, 41_keystream.md R122) -/

theorem ksaRounds_isPermutation (keyAt : Nat → Byte) (n : Nat) : IsPermutation (ksaRounds keyAt n).2 := by
  induction n with
  | zero => exact identityTable_isPermutation
  | succ n ih => exact (swapTable_isSwap _ _ _).isPermutation ih

theorem ksaTable_isPermutation (keyAt : Nat → Byte) : IsPermutation (ksaTable keyAt) :=
  ksaRounds_isPermutation keyAt 256

theorem prgaStep_isPermutation {s : State} (h : IsPermutation s.sbox) : IsPermutation (prgaStep s).1.sbox :=
  (swapTable_isSwap _ _ _).isPermutation h

/-! ### The key length -/

theorem appendKey_keylen_toNat (b : Byte) {s : State} (h : s.keylen.toNat < 256) :
    (appendKey b s).keylen.toNat = s.keylen.toNat + 1 := by
  rw [appendKey_keylen, BitVec.toNat_add, BitVec.toNat_ofNat]
  omega

theorem appendKey_keylen_ne_zero (b : Byte) {s : State} (h : s.keylen.toNat < 256) : (appendKey b s).keylen ≠ 0#9 := by
  intro h0
  have hlen := appendKey_keylen_toNat b h
  rw [h0, BitVec.toNat_zero] at hlen
  omega

/-! ### Every update keeps the invariants -/

namespace State.Inv

variable {s : State}

theorem withPending (rest : List HostEvent) : s.Inv → (withPending rest s).Inv
  | ⟨hlen, hempty, hfresh, hperm, hdvalid⟩ => ⟨hlen, hempty, hfresh, hperm, hdvalid⟩

theorem withResponse (r : Response) : s.Inv → (withResponse r s).Inv
  | ⟨hlen, hempty, hfresh, hperm, hdvalid⟩ => ⟨hlen, hempty, hfresh, hperm, hdvalid⟩

theorem clearDvalid : s.Inv → (clearDvalid s).Inv
  | ⟨hlen, hempty, hfresh, hperm, _⟩ => ⟨hlen, hempty, hfresh, hperm, fun _ => rfl⟩

theorem raiseCmdError (e : CmdError) (h : s.Inv) : (raiseCmdError e s).Inv where
  keylen_le := by simpa using h.keylen_le
  svalid_of_empty := by simpa using h.svalid_of_empty
  fresh_of_unscheduled := by simpa using h.fresh_of_unscheduled
  permutation := by simpa using h.permutation
  dvalid_of_unscheduled := by simp

theorem setOverflow : s.Inv → (setOverflow s).Inv
  | ⟨hlen, hempty, hfresh, hperm, hdvalid⟩ => ⟨hlen, hempty, hfresh, hperm, hdvalid⟩

theorem clearState (s : State) : (clearState s).Inv := by constructor <;> simp

theorem releaseReset (s : State) : (releaseReset s).Inv := by constructor <;> simp

theorem appendKey (b : Byte) (h : s.Inv) (hlt : s.keylen.toNat < 256) : (appendKey b s).Inv where
  keylen_le := by rw [appendKey_keylen_toNat b hlt]; omega
  svalid_of_empty h0 := absurd h0 (appendKey_keylen_ne_zero b hlt)
  fresh_of_unscheduled := h.fresh_of_unscheduled
  permutation := h.permutation
  dvalid_of_unscheduled := h.dvalid_of_unscheduled

/-- With no key held nothing is scheduled, so clearing SVALID changes nothing the invariants speak of. -/
theorem clearSvalid (h : s.Inv) (h0 : s.keylen = 0#9) : (clearSvalid s).Inv where
  keylen_le := h.keylen_le
  svalid_of_empty _ := rfl
  fresh_of_unscheduled _ := h.fresh_of_unscheduled (h.svalid_of_empty h0)
  permutation := by simp
  dvalid_of_unscheduled _ := h.dvalid_of_unscheduled (h.svalid_of_empty h0)

theorem startKeystream {t : Table} (h : s.Inv) (hne : s.keylen ≠ 0#9) (ht : IsPermutation t) :
    (startKeystream t s).Inv where
  keylen_le := h.keylen_le
  svalid_of_empty h0 := absurd h0 hne
  fresh_of_unscheduled := by simp
  permutation _ := ht
  dvalid_of_unscheduled _ := rfl

theorem generatorStep (b : Byte) (h : s.Inv) (hs : s.svalid = true) : (latchResult b (prgaStep s).1).Inv where
  keylen_le := h.keylen_le
  svalid_of_empty := h.svalid_of_empty
  fresh_of_unscheduled := by simp [hs]
  permutation _ := prgaStep_isPermutation (h.permutation hs)
  dvalid_of_unscheduled := by simp [hs]

end State.Inv

/-! ### Commands, events, steps and runs -/

theorem ExecCase.inv {s t : State} {i : Instr} (h : ExecCase s i t) (hi : s.Inv) : t.Inv := by
  cases h with
  | nop => exact hi.clearDvalid
  | clr => exact .clearState s
  | keybRoom b hk => exact (hi.appendKey b hk).clearDvalid
  | keybFull b hk => exact hi.setOverflow.clearDvalid
  | ksaEmpty hk => exact (hi.clearSvalid hk).raiseCmdError _
  | ksaKey hk => exact hi.startKeystream hk (ksaTable_isPermutation _)
  | generatorStep _ _ hs => exact hi.generatorStep _ hs
  | generatorRefused => exact hi.raiseCmdError _

theorem EventCase.inv {s t : State} {e : HostEvent} (h : EventCase s e t) (hi : s.Inv) : t.Inv := by
  cases h with
  | command i u _ _ _ hexec => exact (hexec.inv hi).withResponse _
  | illegal => exact (hi.raiseCmdError _).withResponse _
  | other r => exact hi.withResponse r
  | reset => exact .releaseReset s

theorem step_inv {s t : State} (hi : s.Inv) (h : step s = .next t) : t.Inv := by
  cases hp : s.pending with
  | nil =>
    rw [step_of_idle hp] at h
    cases h
    exact hi
  | cons e rest => exact (step_eventCase hp h).inv (hi.withPending rest)

/-- Every step completes (70_reset_and_hazards.md R220). -/
theorem step_answers_next (s : State) : ∃ t, step s = .next t := by
  cases hp : s.pending with
  | nil => exact ⟨s, step_of_idle hp⟩
  | cons e rest =>
    obtain ⟨t, ht, -⟩ := serveEvent_cases e (withPending rest s)
    exact ⟨t, by rw [step_of_pending hp, ht]⟩

theorem run_succ_of_step {s u : State} (h : step s = .next u) (n : Nat) :
    Sys2Proof.core.run (n + 1) s = Sys2Proof.core.run n u := by
  have hcore : Sys2Proof.core.step s = .next u := h
  simp only [Host.Core.run, hcore]

/-- What holds at the start of a run and is kept by every step holds at the run's end. -/
theorem run_induction {P : State → Prop} (hstep : ∀ s t, P s → step s = .next t → P t) {n : Nat} {s t : State}
    (h0 : P s) (h : Sys2Proof.core.run n s = .next t) : P t := by
  induction n generalizing s with
  | zero =>
    cases h
    exact h0
  | succ n ih =>
    obtain ⟨u, hu⟩ := step_answers_next s
    rw [run_succ_of_step hu] at h
    exact ih (hstep s u h0 hu) h

/-- Every state whose values are those of reset meets the invariants, whatever its S, K and coming events. -/
theorem reset_inv (sbox key : Table) (es : List HostEvent) :
    { State.reset with sbox := sbox, key := key, pending := es : State }.Inv := by
  constructor <;> simp [State.reset]

/-! ### The obligations on the invariants -/

/-- Settles O50, by the reset values. -/
theorem invariantsHoldAtReset : Obligations.InvariantsHoldAtReset := by
  unfold Obligations.InvariantsHoldAtReset
  exact reset_inv State.reset.sbox State.reset.key []

/-- Settles O51, by what the event is to the state and the update lemmas of `State.Inv`. -/
theorem everyStepKeepsTheInvariants : Obligations.EveryStepKeepsTheInvariants := by
  unfold Obligations.EveryStepKeepsTheInvariants
  exact fun s t => step_inv

/-- Settles O52, by induction on the number of steps with `step_inv`. -/
theorem reachableStatesMeetTheInvariants : Obligations.ReachableStatesMeetTheInvariants := by
  unfold Obligations.ReachableStatesMeetTheInvariants
  intro es sbox key n t h
  have hi : t.Inv := run_induction (fun _ _ => step_inv) (reset_inv sbox key es) h
  exact ⟨hi.svalid_of_empty, hi.fresh_of_unscheduled, hi.permutation, hi.keylen_le⟩

/-- Settles O12, register by register. -/
theorem resetValues : Obligations.ResetValues := by
  unfold Obligations.ResetValues
  refine ⟨rfl, rfl, rfl, rfl, rfl, rfl, rfl, rfl, rfl, rfl, fun r => ?_⟩
  cases r with
  | status => decide
  | dout => rfl
  | prgaIdx => decide
  | sbox k => rfl

end Sys2Proof.Machine
end

section
/-! SUPPORT. What the port can observe (10_state.md R23, R24; 92_eei_decisions.md D30): `ObsEq` is kept by each update, so by
each command and each step, and a read answers alike in both states. -/

namespace Sys2Proof.Machine

/-! ### Key bytes and the key schedule -/

theorem keyByte_appendKey (b : Byte) {s : State} (h : s.keylen.toNat < 256) {n : Nat} (hn : n < 256) :
    keyByte (appendKey b s) n = if n = s.keylen.toNat then b else keyByte s n := by
  have hpos : s.keylen.setWidth 8 = BitVec.ofNat 8 n ↔ n = s.keylen.toNat := by
    rw [← BitVec.toNat_inj, BitVec.toNat_setWidth, BitVec.toNat_ofNat]
    omega
  simp only [keyByte, appendKey_key, readTable_writeTable, hpos]

/-- The first n rounds use the key bytes of these rounds only. -/
theorem ksaRounds_congr {f g : Nat → Byte} {n : Nat} (h : ∀ k, k < n → f k = g k) : ksaRounds f n = ksaRounds g n := by
  induction n with
  | zero => rfl
  | succ n ih =>
    have hrounds : ksaRounds f n = ksaRounds g n := ih fun k hk => h k (by omega)
    simp only [ksaRounds, ksaRound, hrounds, h n (by omega)]

theorem ksaTable_congr {f g : Nat → Byte} (h : ∀ k, k < 256 → f k = g k) : ksaTable f = ksaTable g :=
  congrArg Prod.snd (ksaRounds_congr h)

theorem keylen_toNat_pos {s : State} (h : s.keylen ≠ 0#9) : 0 < s.keylen.toNat :=
  Nat.pos_of_ne_zero fun h0 => h (BitVec.eq_of_toNat_eq h0)

/-- The table KSA computes is a function of the held key (40_key_schedule.md R104). -/
theorem ksaTable_of_sameKey {s t : State} (h : SameKey s t) (hne : s.keylen ≠ 0#9) :
    (ksaTable fun n => keyByte t (n % t.keylen.toNat)) = ksaTable fun n => keyByte s (n % s.keylen.toNat) := by
  obtain ⟨hlen, hkey⟩ := h
  have hpos := keylen_toNat_pos hne
  refine ksaTable_congr fun n hn => ?_
  rw [hlen]
  exact hkey _ (Nat.mod_lt n hpos) (lt_of_le_of_lt (Nat.mod_le n _) hn)

/-! ### Every update keeps observational equality -/

namespace ObsEq

variable {s t : State}

theorem sameKey (h : ObsEq s t) : SameKey s t := ⟨h.keylen, h.key⟩

theorem withPending (rest : List HostEvent) (h : ObsEq s t) : ObsEq (withPending rest s) (withPending rest t) :=
  { h with pending := rfl }

theorem withResponse (r : Response) (h : ObsEq s t) : ObsEq (withResponse r s) (withResponse r t) :=
  { h with response := rfl }

theorem clearDvalid (h : ObsEq s t) : ObsEq (clearDvalid s) (clearDvalid t) :=
  { h with dvalid := rfl }

theorem setErrorFlag (e : CmdError) (h : ObsEq s t) : ObsEq (setErrorFlag e s) (setErrorFlag e t) := by
  cases e with
  | invalidKey => exact { h with keyerr := rfl }
  | sequence => exact { h with seqerr := rfl }
  | illegalCommand => exact { h with cmderr := rfl }

theorem raiseCmdError (e : CmdError) (h : ObsEq s t) : ObsEq (raiseCmdError e s) (raiseCmdError e t) :=
  (h.setErrorFlag e).clearDvalid

theorem setOverflow (h : ObsEq s t) : ObsEq (setOverflow s) (setOverflow t) :=
  { h with kovf := rfl }

theorem latchResult (b : Byte) (h : ObsEq s t) : ObsEq (latchResult b s) (latchResult b t) :=
  { h with dout := rfl, dvalid := rfl }

/-- With SVALID cleared, S no longer matters. -/
theorem clearSvalid (h : ObsEq s t) : ObsEq (clearSvalid s) (clearSvalid t) :=
  { h with svalid := rfl, sbox := by simp }

theorem startKeystream (u : Table) (h : ObsEq s t) : ObsEq (startKeystream u s) (startKeystream u t) :=
  { h with sbox := fun _ => rfl, i := rfl, j := rfl, dout := rfl, svalid := rfl, dvalid := rfl }

/-- With no key held and nothing scheduled, neither K nor S matters. -/
theorem clearState (h : ObsEq s t) : ObsEq (clearState s) (clearState t) := by
  constructor <;> simp [h.pending, h.response]

theorem releaseReset (h : ObsEq s t) : ObsEq (releaseReset s) (releaseReset t) := by
  constructor <;> simp [h.pending]

theorem appendKey (b : Byte) (h : ObsEq s t) (hlt : s.keylen.toNat < 256) :
    ObsEq (appendKey b s) (appendKey b t) where
  key n hn hn' := by
    have hlt' : t.keylen.toNat < 256 := h.keylen ▸ hlt
    rw [appendKey_keylen_toNat b hlt] at hn
    rw [keyByte_appendKey b hlt hn', keyByte_appendKey b hlt' hn', h.keylen]
    split
    · rfl
    · exact h.key n (by omega) hn'
  keylen := by simp [h.keylen]
  sbox := h.sbox
  i := h.i
  j := h.j
  dout := h.dout
  svalid := h.svalid
  dvalid := h.dvalid
  keyerr := h.keyerr
  seqerr := h.seqerr
  cmderr := h.cmderr
  kovf := h.kovf
  pending := h.pending
  response := h.response

/-- While SVALID is 1 the generator sees the same S, I and J, so it emits the same byte. -/
theorem prgaStep_snd (h : ObsEq s t) (hs : s.svalid = true) : (prgaStep t).2 = (prgaStep s).2 := by
  simp only [prgaStep, h.sbox hs, h.i, h.j]

theorem prgaStep (h : ObsEq s t) (hs : s.svalid = true) : ObsEq (prgaStep s).1 (prgaStep t).1 :=
  { h with
    sbox := fun _ => by simp [h.sbox hs, h.i, h.j]
    i := by simp [h.i]
    j := by simp [h.sbox hs, h.i, h.j] }

/-! ### Commands, accesses and steps -/

theorem generatorStep (h : ObsEq s t) (hs : s.svalid = true) (i : Instr) :
    ObsEq (Machine.latchResult (resultByte i (Machine.prgaStep s).2) (Machine.prgaStep s).1)
      (Machine.latchResult (resultByte i (Machine.prgaStep t).2) (Machine.prgaStep t).1) := by
  rw [h.prgaStep_snd hs]
  exact (h.prgaStep hs).latchResult _

/-- Two observationally equal states take the same one of the eight cases of a command. -/
theorem exec_next (h : ObsEq s t) (i : Instr) :
    ∃ s' t', exec i s = .next s' ∧ exec i t = .next t' ∧ ObsEq s' t' := by
  obtain ⟨s', hs', hcase⟩ := exec_next_cases i s
  cases hcase with
  | nop => exact ⟨_, _, hs', exec_nop t, h.clearDvalid⟩
  | clr => exact ⟨_, _, hs', exec_clr t, h.clearState⟩
  | keybRoom b hk =>
    exact ⟨_, _, hs', exec_keyb_of_room b (h.keylen ▸ hk), (h.appendKey b hk).clearDvalid⟩
  | keybFull b hk => exact ⟨_, _, hs', exec_keyb_of_full b (h.keylen ▸ hk), h.setOverflow.clearDvalid⟩
  | ksaEmpty hk => exact ⟨_, _, hs', exec_ksa_of_empty (h.keylen ▸ hk), h.clearSvalid.raiseCmdError _⟩
  | ksaKey hk =>
    refine ⟨_, _, hs', exec_ksa_of_key (h.keylen ▸ hk), ?_⟩
    rw [ksaTable_of_sameKey h.sameKey hk]
    exact h.startKeystream _
  | generatorStep _ hi hs =>
    have ht : t.svalid = true := h.svalid ▸ hs
    obtain rfl | ⟨m, rfl⟩ := (usesGenerator_iff i).mp hi
    · exact ⟨_, _, hs', exec_gen_of_scheduled ht, h.generatorStep hs .gen⟩
    · exact ⟨_, _, hs', exec_xor_of_scheduled m ht, h.generatorStep hs (.xor m)⟩
  | generatorRefused _ hi hs =>
    have ht : t.svalid = false := h.svalid ▸ hs
    obtain rfl | ⟨m, rfl⟩ := (usesGenerator_iff i).mp hi
    · exact ⟨_, _, hs', exec_gen_of_unscheduled ht, h.raiseCmdError _⟩
    · exact ⟨_, _, hs', exec_xor_of_unscheduled m ht, h.raiseCmdError _⟩

/-- A register shows S only while SVALID is 1, and K never. -/
theorem readRegister_eq (h : ObsEq s t) (r : ReadReg) : readRegister r t = readRegister r s := by
  cases r with
  | status =>
    simp only [readRegister, statusWord, h.keylen, h.kovf, h.cmderr, h.seqerr, h.keyerr, h.dvalid, h.svalid]
  | dout => simp only [readRegister, h.dout]
  | prgaIdx => simp only [readRegister, h.i, h.j]
  | sbox k =>
    cases hs : s.svalid with
    | true => simp [readRegister, h.svalid, hs, h.sbox hs]
    | false => simp [readRegister, h.svalid, hs]

theorem serveEvent_next (h : ObsEq s t) (e : HostEvent) :
    ∃ s' t', serveEvent e s = .next s' ∧ serveEvent e t = .next t' ∧ ObsEq s' t' := by
  obtain ⟨s', hs', hcase⟩ := serveEvent_cases e s
  cases hcase with
  | command off size w i u hsel hdec hexec =>
    obtain ⟨u', v, hu, hv, huv⟩ := h.exec_next i
    cases hexec.symm.trans hu
    exact ⟨_, _, hs', by simp only [serveEvent, serveAccess, hsel, performWord, hdec, hv, answerWrite],
      huv.withResponse _⟩
  | illegal off size w err hsel hdec =>
    exact ⟨_, _, hs', by simp only [serveEvent, serveAccess, hsel, performWord, hdec, answerWrite],
      (h.raiseCmdError _).withResponse _⟩
  | writeRefused off size w c hsel =>
    exact ⟨_, _, hs', by simp only [serveEvent, serveAccess, hsel], h.withResponse _⟩
  | read off size r hsel =>
    exact ⟨_, _, hs', by simp only [serveEvent, serveAccess, hsel, h.readRegister_eq], h.withResponse _⟩
  | readRefused off size c hsel =>
    exact ⟨_, _, hs', by simp only [serveEvent, serveAccess, hsel], h.withResponse _⟩
  | reset _ he =>
    exact ⟨_, _, hs', serveEvent_of_isReset he t, h.releaseReset⟩

theorem step_next (h : ObsEq s t) : ∃ s' t', step s = .next s' ∧ step t = .next t' ∧ ObsEq s' t' := by
  cases hp : s.pending with
  | nil => exact ⟨s, t, step_of_idle hp, step_of_idle (h.pending.trans hp), h⟩
  | cons e rest =>
    rw [step_of_pending hp, step_of_pending (h.pending.trans hp)]
    exact (h.withPending rest).serveEvent_next e

end ObsEq

/-- Settles O53, by the simulation `ObsEq.step_next`. -/
theorem unobservableArraysNeverShow : Obligations.UnobservableArraysNeverShow := by
  unfold Obligations.UnobservableArraysNeverShow
  exact fun s t h => h.step_next

end Sys2Proof.Machine
end

section
/-! SUPPORT. Commands as the host issues them (00_scope.md R10, 20_memory.md R57): a write of a command's word runs the
command, KEYBs append to the held key up to 256 bytes, and KSA schedules it as the source does (40_key_schedule.md R100
to R103). -/

namespace Sys2Proof.Machine

/-! ### One command -/

/-- The word of a command decodes to that command, by its fields (30_encoding.md R83, R87). -/
theorem decode_encode (i : Instr) : decode (encode i) = .ok i := by
  cases i with
  | nop | clr | ksa | gen => decide
  | keyb b =>
    obtain ⟨hrsvd, hopc, hopnd, -⟩ := Laws.EncodeLegal.keyb b
    simp [decode, hrsvd, hopc, hopnd, opcodeOf, operandOf]
  | xor m =>
    obtain ⟨hrsvd, hopc, hopnd, -⟩ := Laws.EncodeLegal.xor m
    simp [decode, hrsvd, hopc, hopnd, opcodeOf, operandOf]

/-- A word write to CMD runs the command that the word decodes to, and the port answers the write. -/
theorem serveEvent_of_command {s u : State} {w : Word} {i : Instr} (hdec : decode w = .ok i)
    (hexec : exec i s = .next u) :
    serveEvent (.access (.write cmdOffset .word w)) s = .next (withResponse .written u) := by
  have hsel : selectWrite cmdOffset .word = .ok () := rfl
  simp only [serveEvent, serveAccess, hsel, performWord, hdec, hexec, answerWrite]

theorem commandWrite_toNat (w : Word) : commandWrite 32 w.toNat = .access (.write cmdOffset .word w) := by
  rw [commandWrite, Nat.mod_eq_of_lt w.isLt, BitVec.ofNat_toNat, BitVec.setWidth_eq]

/-- Settles O7, by `serveEvent_of_command` on the state without the write. -/
theorem stepRunsTheWrittenCommand : Obligations.StepRunsTheWrittenCommand := by
  unfold Obligations.StepRunsTheWrittenCommand
  constructor
  · intro s rest w i hp hdec
    obtain ⟨t, ht⟩ := exec_answers_next i (withPending rest s)
    exact ⟨t, ht, (step_of_pending hp).trans (serveEvent_of_command hdec ht)⟩
  · intro s w i hdec
    obtain ⟨t, ht⟩ := exec_answers_next i s
    have hp : (s.withFetchWord 32 w.toNat).pending = .access (.write cmdOffset .word w) :: s.pending := by
      rw [State.withFetchWord, withPending_pending, commandWrite_toNat]
    exact ⟨t, ht, (step_of_pending hp).trans (serveEvent_of_command hdec ht)⟩

/-! ### Lists of commands -/

theorem hostCommand_of_exec {i : Instr} {s u : State} (h : exec i s = .next u) :
    hostCommand i s = some (withResponse .written u) := by
  have hstep : step (withPending (.access (.write cmdOffset .word (encode i)) :: s.pending) s) =
      .next (withResponse .written u) :=
    (step_of_pending rfl).trans (serveEvent_of_command (decode_encode i) h)
  simp [hostCommand, portAccess, hstep]

theorem hostCommands_cons {i : Instr} {s u : State} (h : exec i s = .next u) (is : List Instr) :
    hostCommands (i :: is) s = hostCommands is (withResponse .written u) := by
  simp only [hostCommands, hostCommand_of_exec h]

theorem hostCommands_append {is : List Instr} {s u : State} (h : hostCommands is s = some u) (js : List Instr) :
    hostCommands (is ++ js) s = hostCommands js u := by
  induction is generalizing s with
  | nil =>
    cases h
    rfl
  | cons i is ih =>
    obtain ⟨v, hv⟩ := exec_answers_next i s
    rw [hostCommands_cons hv] at h
    rw [List.cons_append, hostCommands_cons hv, ih h]

/-! ### The held key -/

@[simp] theorem heldKey_length (s : State) : (heldKey s).length = s.keylen.toNat := by simp [heldKey]

@[simp] theorem heldKey_withResponse (r : Response) (s : State) : heldKey (withResponse r s) = heldKey s := rfl
@[simp] theorem heldKey_clearDvalid (s : State) : heldKey (clearDvalid s) = heldKey s := rfl
@[simp] theorem heldKey_setOverflow (s : State) : heldKey (setOverflow s) = heldKey s := rfl
@[simp] theorem heldKey_startKeystream (t : Table) (s : State) : heldKey (startKeystream t s) = heldKey s := rfl

theorem heldKey_eq_nil {s : State} (h : s.keylen = 0#9) : heldKey s = [] := by simp [heldKey, h]

theorem heldKey_getD (s : State) {n : Nat} (h : n < s.keylen.toNat) : (heldKey s).getD n 0#8 = keyByte s n := by
  simp [heldKey, h]

theorem heldKey_appendKey (b : Byte) {s : State} (h : s.keylen.toNat < 256) :
    heldKey (appendKey b s) = heldKey s ++ [b] := by
  have hold : (List.range s.keylen.toNat).map (keyByte (appendKey b s)) = heldKey s :=
    List.map_congr_left fun n hn => by
      have hlt : n < s.keylen.toNat := List.mem_range.mp hn
      rw [keyByte_appendKey b h (by omega), if_neg (by omega)]
  have hnew : keyByte (appendKey b s) s.keylen.toNat = b := by rw [keyByte_appendKey b h h, if_pos rfl]
  rw [heldKey, appendKey_keylen_toNat b h, List.range_succ, List.map_append, hold, List.map_singleton, hnew]

/-- What the commands KEYB of `bs` leave: the bytes behind the held key as far as there is room, KOVF when there was not,
and S, I, J, DOUT, SVALID and the three error flags as they were. -/
structure KeyAppended (bs : List Byte) (s u : State) : Prop where
  held : heldKey u = (heldKey s ++ bs).take 256
  kovf : u.kovf = true ↔ s.kovf = true ∨ 256 < (heldKey s ++ bs).length
  sbox : u.sbox = s.sbox
  i : u.i = s.i
  j : u.j = s.j
  dout : u.dout = s.dout
  svalid : u.svalid = s.svalid
  keyerr : u.keyerr = s.keyerr
  seqerr : u.seqerr = s.seqerr
  cmderr : u.cmderr = s.cmderr

namespace KeyAppended

variable {bs cs : List Byte} {s u v : State}

theorem keylen_toNat (h : KeyAppended bs s u) : u.keylen.toNat = min 256 (s.keylen.toNat + bs.length) := by
  rw [← heldKey_length u, h.held, List.length_take, List.length_append, heldKey_length]

theorem nil (hle : s.keylen.toNat ≤ 256) : KeyAppended [] s s where
  held := by rw [List.append_nil, List.take_of_length_le (by rwa [heldKey_length])]
  kovf := by simp [Nat.not_lt.mpr hle]
  sbox := rfl
  i := rfl
  j := rfl
  dout := rfl
  svalid := rfl
  keyerr := rfl
  seqerr := rfl
  cmderr := rfl

/-- Cutting at 256 bytes after each part is cutting once at the end. -/
theorem trans (h : KeyAppended bs s u) (h' : KeyAppended cs u v) : KeyAppended (bs ++ cs) s v where
  held := by
    rw [h'.held, h.held, ← List.append_assoc, List.take_append, List.take_append (l₁ := heldKey s ++ bs),
      List.take_take, List.length_take]
    congr 2
    omega
  kovf := by
    have hlen := h.keylen_toNat
    rw [h'.kovf, h.kovf]
    simp only [List.length_append, heldKey_length, hlen, or_assoc]
    refine or_congr_right ?_
    omega
  sbox := h'.sbox.trans h.sbox
  i := h'.i.trans h.i
  j := h'.j.trans h.j
  dout := h'.dout.trans h.dout
  svalid := h'.svalid.trans h.svalid
  keyerr := h'.keyerr.trans h.keyerr
  seqerr := h'.seqerr.trans h.seqerr
  cmderr := h'.cmderr.trans h.cmderr

end KeyAppended

/-- One KEYB, with room or without (40_key_schedule.md R101). -/
theorem exec_keyb_appends (b : Byte) {s : State} (hle : s.keylen.toNat ≤ 256) :
    ∃ u, exec (.keyb b) s = .next u ∧ KeyAppended [b] s (withResponse .written u) := by
  by_cases hlt : s.keylen.toNat < 256
  · refine ⟨_, exec_keyb_of_room b hlt, ?_⟩
    constructor
    case held =>
      rw [heldKey_withResponse, heldKey_clearDvalid, heldKey_appendKey b hlt, List.take_of_length_le (by simp; omega)]
    case kovf => simp; omega
    all_goals rfl
  · refine ⟨_, exec_keyb_of_full b hlt, ?_⟩
    constructor
    case held =>
      rw [heldKey_withResponse, heldKey_clearDvalid, heldKey_setOverflow, List.take_left' (by rw [heldKey_length]; omega)]
    case kovf => simp; omega
    all_goals rfl

/-- KEYBs append their bytes in order (40_key_schedule.md R100, 70_reset_and_hazards.md R216). -/
theorem hostCommands_keyb (bs : List Byte) {s : State} (hle : s.keylen.toNat ≤ 256) :
    ∃ u, hostCommands (bs.map .keyb) s = some u ∧ KeyAppended bs s u := by
  induction bs generalizing s with
  | nil => exact ⟨s, rfl, .nil hle⟩
  | cons b bs ih =>
    obtain ⟨u, hu, happ⟩ := exec_keyb_appends b hle
    obtain ⟨v, hv, happ'⟩ := ih (s := withResponse .written u) (by rw [happ.keylen_toNat]; omega)
    exact ⟨v, by rw [List.map_cons, hostCommands_cons hu, hv], happ.trans happ'⟩

/-! ### The schedule against the source's -/

/-- The source's loop over exact integers is the CORE's loop over bytes (40_key_schedule.md R103). -/
theorem sourceKsa_eq (key : List Byte) (n : Nat) :
    sourceKsa key n = ksaRounds (fun k => key.getD (k % key.length) 0#8) n := by
  induction n with
  | zero => rfl
  | succ n ih =>
    have hmod (a b c : Byte) : BitVec.ofNat 8 ((a.toNat + b.toNat + c.toNat) % 256) = a + b + c := by
      apply BitVec.eq_of_toNat_eq
      simp
    simp only [sourceKsa, ksaRounds, ksaRound, ih, hmod]

theorem sourceSchedule_eq {key : List Byte} (h : key ≠ []) :
    sourceSchedule key = some (ksaTable fun k => key.getD (k % key.length) 0#8) := by
  rw [sourceSchedule, if_neg h, sourceKsa_eq, ksaTable]

/-- The loop has 256 rounds, so the source's schedule uses at most the first 256 key bytes (40_key_schedule.md R102). -/
theorem sourceSchedule_take (key : List Byte) : sourceSchedule (key.take 256) = sourceSchedule key := by
  by_cases hlen : key.length ≤ 256
  · rw [List.take_of_length_le hlen]
  · have hne : key ≠ [] := by
      rintro rfl
      simp at hlen
    rw [sourceSchedule_eq hne, sourceSchedule_eq (by simpa using hne)]
    refine congrArg some (ksaTable_congr fun k hk => ?_)
    rw [List.length_take, Nat.mod_eq_of_lt (by omega), Nat.mod_eq_of_lt (by omega)]
    simp [List.getD_eq_getElem?_getD, hk]

/-- KSA's table is the source's schedule of the held key. -/
theorem sourceSchedule_heldKey {s : State} (h : s.keylen ≠ 0#9) :
    sourceSchedule (heldKey s) = some (ksaTable fun n => keyByte s (n % s.keylen.toNat)) := by
  have hpos := keylen_toNat_pos h
  rw [sourceSchedule_eq (List.ne_nil_of_length_pos (by rwa [heldKey_length])), heldKey_length]
  exact congrArg some (ksaTable_congr fun n _ => heldKey_getD s (Nat.mod_lt n hpos))

/-- KEYBs and a KSA schedule the held key with the bytes appended, as the source schedules it. -/
theorem hostCommands_keyb_ksa (bs : List Byte) {s : State} (hle : s.keylen.toNat ≤ 256) (hne : heldKey s ++ bs ≠ []) :
    ∃ u tbl, hostCommands (bs.map .keyb ++ [.ksa]) s = some (withResponse .written (startKeystream tbl u)) ∧
      KeyAppended bs s u ∧ sourceSchedule (heldKey s ++ bs) = some tbl := by
  obtain ⟨u, hu, happ⟩ := hostCommands_keyb bs hle
  have hkey : u.keylen ≠ 0#9 := by
    intro h0
    have hlen := happ.keylen_toNat
    have hpos := List.length_pos_of_ne_nil hne
    rw [h0, BitVec.toNat_zero] at hlen
    rw [List.length_append, heldKey_length] at hpos
    omega
  have htbl := sourceSchedule_heldKey hkey
  rw [happ.held, sourceSchedule_take] at htbl
  refine ⟨u, _, ?_, happ, htbl⟩
  rw [hostCommands_append hu, hostCommands_cons (exec_ksa_of_key hkey), hostCommands]

/-- `schedule(key)` on a key that is not empty, of any length: CLR empties the buffer, and the key is appended and
scheduled (00_scope.md R10). -/
theorem hostCommands_scheduleCommands {key : List Byte} (hne : key ≠ []) (s : State) :
    ∃ u tbl, hostCommands (scheduleCommands key) s = some (withResponse .written (startKeystream tbl u)) ∧
      KeyAppended key (withResponse .written (clearState s)) u ∧ heldKey u = key.take 256 ∧
      sourceSchedule key = some tbl := by
  have hnil : heldKey (withResponse .written (clearState s)) = [] := heldKey_eq_nil rfl
  obtain ⟨u, tbl, hu, happ, htbl⟩ :=
    hostCommands_keyb_ksa key (s := withResponse .written (clearState s)) (by simp) (by rwa [hnil])
  rw [hnil, List.nil_append] at htbl
  refine ⟨u, tbl, ?_, happ, ?_, htbl⟩
  · rw [scheduleCommands, hostCommands_cons (exec_clr s), hu]
  · rw [happ.held, hnil, List.nil_append]

/-- Settles O30, by `hostCommands_scheduleCommands` for the first key and `hostCommands_keyb_ksa` for what is appended. -/
theorem keyBytesAreHeldInOrder : Obligations.KeyBytesAreHeldInOrder := by
  unfold Obligations.KeyBytesAreHeldInOrder
  intro key s hpos hle
  have hne : key ≠ [] := List.ne_nil_of_length_pos hpos
  obtain ⟨u, tbl, hu, happ, hheld, htbl⟩ := hostCommands_scheduleCommands hne s
  set t := withResponse .written (startKeystream tbl u) with ht
  have hkey : heldKey t = key := by
    rw [ht, heldKey_withResponse, heldKey_startKeystream, hheld, List.take_of_length_le hle]
  have hlen : t.keylen.toNat = key.length := by rw [← heldKey_length, hkey]
  have hkovf : t.kovf = false := by
    rw [← Bool.not_eq_true, ht, withResponse_kovf, startKeystream_kovf, happ.kovf]
    simpa using hle
  refine ⟨t, hu, hkey, hlen, hkovf, happ.keyerr, rfl, htbl, fun more => ?_⟩
  obtain ⟨v, tbl', hv, happ', htbl'⟩ := hostCommands_keyb_ksa more (s := t) (by omega) (by simp [hkey, hne])
  rw [hkey] at htbl'
  exact ⟨_, hv, by rw [heldKey_withResponse, heldKey_startKeystream, happ'.held, hkey], htbl'⟩

end Sys2Proof.Machine
end

section
/-! SUPPORT. The register window seen from the host (20_memory.md): which accesses the port refuses (R50 to R55), and what
a read answers (R56, R59 to R62). -/

namespace Sys2Proof.Machine

/-! ### Which register an access selects -/

/-- Alignment as the port checks it and as a remainder (20_memory.md R52). -/
theorem extractLsb'_low_eq_zero_iff (off : Offset) : off.extractLsb' 0 2 = 0#2 ↔ off.toNat % 4 = 0 := by
  simp [← BitVec.toNat_inj]

/-- The S-box window, by the top two bits and as a range of offsets (20_memory.md R51). -/
theorem extractLsb'_top_eq_one_iff (off : Offset) :
    off.extractLsb' 10 2 = 0b01#2 ↔ 0x400 ≤ off.toNat ∧ off.toNat < 0x800 := by
  have hlt := off.isLt
  simp only [← BitVec.toNat_inj, BitVec.extractLsb'_toNat, Nat.shiftRight_eq_div_pow, BitVec.toNat_ofNat]
  omega

theorem registerAt_readable_iff (off : Offset) :
    (∃ r, registerAt off = some (.readable r)) ↔
      off.toNat = 0x004 ∨ off.toNat = 0x008 ∨ off.toNat = 0x00C ∨ (0x400 ≤ off.toNat ∧ off.toNat < 0x800) := by
  simp only [registerAt, extractLsb'_top_eq_one_iff]
  simp only [← BitVec.toNat_inj, BitVec.toNat_ofNat]
  split_ifs <;> simp <;> omega

theorem selectRegister_ok_iff (off : Offset) (size : Size) (r : Reg) :
    selectRegister off size = .ok r ↔ size = .word ∧ off.toNat % 4 = 0 ∧ registerAt off = some r := by
  rw [← extractLsb'_low_eq_zero_iff]
  by_cases hs : size = .word
  · by_cases ha : off.extractLsb' 0 2 = 0#2
    · cases hr : registerAt off <;> simp [selectRegister, hs, ha, hr]
    · simp [selectRegister, hs, ha]
  · simp [selectRegister, hs]

theorem selectRead_ok_iff (off : Offset) (size : Size) (r : ReadReg) :
    selectRead off size = .ok r ↔ size = .word ∧ off.toNat % 4 = 0 ∧ registerAt off = some (.readable r) := by
  rw [← selectRegister_ok_iff]
  cases h : selectRegister off size with
  | error c => simp [selectRead, h]
  | ok reg => cases reg <;> simp [selectRead, h]

/-! ### Refused accesses (20_memory.md R52 to R55) -/

theorem not_refused_read_iff (off : Offset) (size : Size) :
    ¬ Refused (.read off size) ↔ ∃ r, selectRead off size = .ok r := by
  simp only [selectRead_ok_iff, exists_and_left, registerAt_readable_iff, Refused, ne_eq, not_or, not_not]
  refine and_congr_right fun _ => ?_
  omega

theorem not_refused_write_iff (off : Offset) (size : Size) (w : Word) :
    ¬ Refused (.write off size w) ↔ selectWrite off size = .ok () := by
  simp [selectWrite_ok_iff, Refused]

theorem selectRead_error_of_refused {off : Offset} {size : Size} (h : Refused (.read off size)) :
    ∃ c, selectRead off size = .error c := by
  cases hsel : selectRead off size with
  | error c => exact ⟨c, rfl⟩
  | ok r => exact absurd h ((not_refused_read_iff off size).mpr ⟨r, hsel⟩)

theorem selectWrite_error_of_refused {off : Offset} {size : Size} {w : Word} (h : Refused (.write off size w)) :
    ∃ c, selectWrite off size = .error c := by
  cases hsel : selectWrite off size with
  | error c => exact ⟨c, rfl⟩
  | ok _ => exact absurd h ((not_refused_write_iff off size w).mpr hsel)

/-- A refused access is answered with a bus error and does nothing else (60_exceptions.md R185). -/
theorem serveEvent_of_refused {a : Access} (h : Refused a) (s : State) :
    serveEvent (.access a) s = .next (withResponse .busError s) := by
  cases a with
  | read off size =>
    obtain ⟨c, hc⟩ := selectRead_error_of_refused h
    simp only [serveEvent, serveAccess, hc]
  | write off size w =>
    obtain ⟨c, hc⟩ := selectWrite_error_of_refused h
    simp only [serveEvent, serveAccess, hc]

/-- An access that is not refused completes with data or as a performed write. -/
theorem StepCase.response_of_not_refused {s t : State} {a : Access} (h : StepCase s (.access a) t) (ha : ¬ Refused a) :
    t.response ≠ some .busError ∧ t.response ≠ none := by
  cases h with
  | command | illegal | read => simp
  | writeRefused off size w c hsel => simp [not_refused_write_iff, hsel] at ha
  | readRefused off size c hsel => simp [not_refused_read_iff, hsel] at ha
  | reset _ he => simp [isReset] at he

/-- The unmapped ranges of 20_memory.md R53, in either direction. -/
theorem refused_of_unmapped {off : Offset} (h : (0x010 ≤ off.toNat ∧ off.toNat ≤ 0x3FC) ∨
    (0x800 ≤ off.toNat ∧ off.toNat ≤ 0xFFC)) (size : Size) (w : Word) :
    Refused (.read off size) ∧ Refused (.write off size w) := by
  simp only [Refused]
  omega

/-! ### What a read answers (20_memory.md R56) -/

/-- The port's answer to a read, refused or not. -/
def readAnswer (off : Offset) (size : Size) (s : State) : Response :=
  match selectRead off size with
  | .ok r => .data (readRegister r s)
  | .error _ => .busError

theorem readAnswer_of_select {off : Offset} {size : Size} {r : ReadReg} (h : selectRead off size = .ok r) (s : State) :
    readAnswer off size s = .data (readRegister r s) := by
  simp only [readAnswer, h]

theorem readAnswer_congr {s t : State} (h : ∀ r, readRegister r t = readRegister r s) (off : Offset) (size : Size) :
    readAnswer off size t = readAnswer off size s := by
  simp only [readAnswer, h]

/-- No register shows the key buffer (20_memory.md R53) or one of the model's own fields. -/
theorem readRegister_unshown (r : ReadReg) (key : Table) (es : List HostEvent) (a : Option Response) (n : Nat) (s : State) :
    readRegister r { s with key := key, pending := es, response := a, resets := n } = readRegister r s := by
  cases r <;> rfl

theorem readRegister_withPending (r : ReadReg) (rest : List HostEvent) (s : State) :
    readRegister r (withPending rest s) = readRegister r s :=
  readRegister_unshown r s.key rest s.response s.resets s

theorem SameTuple.eq_with_surroundings {s t : State} (h : SameTuple s t) :
    t = { s with pending := t.pending, response := t.response, resets := t.resets } := by
  obtain ⟨hsbox, hkey, hkeylen, hi, hj, hdout, hsvalid, hdvalid, hkeyerr, hseqerr, hcmderr, hkovf⟩ := h
  rw [← hsbox, ← hkey, ← hkeylen, ← hi, ← hj, ← hdout, ← hsvalid, ← hdvalid, ← hkeyerr, ← hseqerr, ← hcmderr, ← hkovf]

theorem readRegister_of_sameTuple {s t : State} (h : SameTuple s t) (r : ReadReg) :
    readRegister r t = readRegister r s := by
  rw [h.eq_with_surroundings]
  exact readRegister_unshown r s.key t.pending t.response t.resets s

/-- A read only takes the event and leaves its answer. -/
theorem step_of_read {s : State} {off : Offset} {size : Size} {rest : List HostEvent}
    (hp : s.pending = .access (.read off size) :: rest) :
    step s = .next (withResponse (readAnswer off size s) (withPending rest s)) := by
  rw [step_of_pending hp]
  cases h : selectRead off size with
  | error c => simp only [serveEvent, serveAccess, readAnswer, h]
  | ok r => simp only [serveEvent, serveAccess, readAnswer, h, readRegister_withPending]

/-- A word read at a register's own offset answers that register. -/
theorem step_of_register_read {s : State} {r : ReadReg} {rest : List HostEvent}
    (hp : s.pending = .access (.read (offsetOf r) .word) :: rest) :
    step s = .next (withResponse (.data (readRegister r s)) (withPending rest s)) := by
  rw [step_of_read hp, readAnswer_of_select (selectRead_offsetOf r)]

theorem sameTuple_withResponse_withPending (r : Response) (rest : List HostEvent) (s : State) :
    SameTuple s (withResponse r (withPending rest s)) := by
  simp [SameTuple]

/-! ### The registers -/

theorem offsetOf_sbox_toNat (k : Byte) : (offsetOf (.sbox k)).toNat = 0x400 + 4 * k.toNat := by
  have hlt := k.isLt
  simp only [offsetOf, BitVec.toNat_add, BitVec.toNat_shiftLeft, BitVec.toNat_setWidth, BitVec.toNat_ofNat,
    Nat.shiftLeft_eq]
  omega

theorem flagWord_getLsbD (b : Bool) (n : Nat) : (flagWord b).getLsbD n = (decide (n = 0) && b) := by
  cases n <;> simp [flagWord]

theorem flagWord_shiftLeft_getLsbD (b : Bool) {m : Nat} (hm : m < 32) (n : Nat) :
    (flagWord b <<< m).getLsbD n = (decide (n = m) && b) := by
  rw [BitVec.getLsbD_shiftLeft, flagWord_getLsbD]
  by_cases h : n = m
  · simp [h, hm]
  · have hbit : n < m ∨ n - m ≠ 0 := by omega
    rcases hbit with hbit | hbit <;> simp [h, hbit]

/-- STATUS bit by bit (20_memory.md R59). -/
theorem statusWord_getLsbD (s : State) (n : Nat) :
    (statusWord s).getLsbD n =
      (decide (16 ≤ n ∧ n < 32) && s.keylen.getLsbD (n - 16) || decide (n = 5) && s.kovf ||
        decide (n = 4) && s.cmderr || decide (n = 3) && s.seqerr || decide (n = 2) && s.keyerr ||
        decide (n = 1) && s.dvalid || decide (n = 0) && s.svalid) := by
  have hkeylen : (s.keylen.setWidth 32 <<< 16).getLsbD n =
      (decide (16 ≤ n ∧ n < 32) && s.keylen.getLsbD (n - 16)) := by
    rw [BitVec.getLsbD_shiftLeft, BitVec.getLsbD_setWidth]
    by_cases h : 16 ≤ n ∧ n < 32
    · have hlt : n - 16 < 32 := by omega
      simp [h, hlt]
    · have hout : n < 16 ∨ ¬ n < 32 := by omega
      rcases hout with hout | hout <;> simp [h, hout]
  simp only [statusWord, BitVec.getLsbD_or, hkeylen, flagWord_shiftLeft_getLsbD, flagWord_getLsbD, Nat.reduceLT]

/-- Above the flags there is only KEYLEN. -/
theorem statusWord_getLsbD_of_ge {n : Nat} (h : 6 ≤ n) (s : State) :
    (statusWord s).getLsbD n = (decide (16 ≤ n ∧ n < 32) && s.keylen.getLsbD (n - 16)) := by
  have hflags : n ≠ 5 ∧ n ≠ 4 ∧ n ≠ 3 ∧ n ≠ 2 ∧ n ≠ 1 ∧ n ≠ 0 := by omega
  simp [statusWord_getLsbD, hflags]

/-- KEYLEN is bits 24:16 of STATUS (20_memory.md R59). -/
theorem statusWord_keylen (s : State) : (statusWord s).extractLsb' 16 9 = s.keylen := by
  refine BitVec.eq_of_getLsbD_eq fun n hn => ?_
  rw [BitVec.getLsbD_extractLsb', statusWord_getLsbD_of_ge (by omega)]
  have hlt : 16 + n < 32 := by omega
  simp [hn, hlt]

/-- Bits 15:6 and 31:25 of STATUS are reserved (20_memory.md R59). -/
theorem statusWord_getLsbD_reserved {n : Nat} (h : (6 ≤ n ∧ n < 16) ∨ 25 ≤ n) (s : State) :
    (statusWord s).getLsbD n = false := by
  rw [statusWord_getLsbD_of_ge (by omega)]
  obtain ⟨-, hlt⟩ | hge := h
  · simp [Nat.not_le.mpr hlt]
  · rw [BitVec.getLsbD_of_ge s.keylen (n - 16) (by omega), Bool.and_false]

theorem statusWord_reserved {start len : Nat} (h : (6 ≤ start ∧ start + len ≤ 16) ∨ 25 ≤ start) (s : State) :
    (statusWord s).extractLsb' start len = 0#len := by
  refine BitVec.eq_of_getLsbD_eq fun n hn => ?_
  have hbit : (6 ≤ start + n ∧ start + n < 16) ∨ 25 ≤ start + n := by omega
  rw [BitVec.getLsbD_extractLsb', statusWord_getLsbD_reserved hbit, Bool.and_false, BitVec.getLsbD_zero]

/-! ### Addresses (20_memory.md R50) -/

theorem offsetOfAddress_inside (off : Offset) : offsetOfAddress (Config.rc4Base + off.toNat) = some off := by
  have hlt := off.isLt
  simp [offsetOfAddress, hlt]

theorem offsetOfAddress_outside {addr : Nat} (h : addr < Config.rc4Base ∨ Config.rc4Base + 4096 ≤ addr) :
    offsetOfAddress addr = none := by
  rw [offsetOfAddress, if_neg (by omega)]

/-! ### The obligations on the port -/

/-- Settles O11, by what the event is to the state. -/
theorem onlyCommandWritesAndResetChangeTheTuple : Obligations.OnlyCommandWritesAndResetChangeTheTuple := by
  unfold Obligations.OnlyCommandWritesAndResetChangeTheTuple
  intro s t e rest hp hw hr h
  cases step_eventCase hp h with
  | command _ _ _ hw' => simp [hw] at hw'
  | illegal _ hw' => simp [hw] at hw'
  | reset _ _ hr' => simp [hr] at hr'
  | other r => exact ⟨sameTuple_withResponse_withPending r rest s, rfl, rfl⟩

/-- Settles O14, by `serveEvent_of_refused` and, for the other accesses, inversion of the step. -/
theorem busErrorExactlyWhenRefused : Obligations.BusErrorExactlyWhenRefused := by
  unfold Obligations.BusErrorExactlyWhenRefused
  intro s a rest hp
  constructor
  · intro ha
    exact (step_of_pending hp).trans (serveEvent_of_refused ha _)
  · intro ha
    obtain ⟨t, ht⟩ := step_answers_next s
    exact ⟨t, ht, (step_cases hp ht).response_of_not_refused ha⟩

/-- Settles O15: the unmapped offsets are refused, and no register shows K. -/
theorem unmappedOffsetsAndTheUnreadableKey : Obligations.UnmappedOffsetsAndTheUnreadableKey := by
  unfold Obligations.UnmappedOffsetsAndTheUnreadableKey
  constructor
  · intro s off size w rest a hoff ha hp
    obtain ⟨hread, hwrite⟩ := refused_of_unmapped hoff size w
    have href : Refused a := by
      obtain rfl | rfl := ha
      · exact hread
      · exact hwrite
    exact (step_of_pending hp).trans (serveEvent_of_refused href _)
  · intro s off size k rest hp
    have hk : readAnswer off size { s with key := k } = readAnswer off size s :=
      readAnswer_congr (fun r => readRegister_unshown r k s.pending s.response s.resets s) off size
    refine ⟨_, step_of_read hp, ?_⟩
    rw [step_of_read (s := { s with key := k }) hp, hk]
    rfl

/-- Settles O16, by `step_of_read` and `readRegister_of_sameTuple`. -/
theorem readsHaveNoSideEffects : Obligations.ReadsHaveNoSideEffects := by
  unfold Obligations.ReadsHaveNoSideEffects
  intro s off size rest hp
  refine ⟨_, step_of_read hp, sameTuple_withResponse_withPending _ rest s, fun u more hu hpu => ?_⟩
  exact ⟨_, step_of_read hpu, congrArg some (readAnswer_congr (readRegister_of_sameTuple hu) off size)⟩

/-- Settles O17, by the bits of `statusWord`. -/
theorem statusReadsFlagsAndKeylen : Obligations.StatusReadsFlagsAndKeylen := by
  unfold Obligations.StatusReadsFlagsAndKeylen
  refine ⟨fun s rest hp => ?_, rfl, rfl, rfl, by decide⟩
  refine ⟨statusWord s, step_of_register_read (r := .status) hp, ?_⟩
  simp only [statusWord_keylen]
  refine ⟨?_, ?_, ?_, ?_, ?_, ?_, statusWord_reserved (by decide) s, trivial, statusWord_reserved (by decide) s, rfl,
    State.Inv.keylen_le⟩
  all_goals
    rw [statusWord_getLsbD]
    simp

/-- Settles O18, by `step_of_register_read`. -/
theorem doutAndIndicesRead : Obligations.DoutAndIndicesRead := by
  unfold Obligations.DoutAndIndicesRead
  exact ⟨fun s rest hp => step_of_register_read (r := .dout) hp,
    fun s rest hp => step_of_register_read (r := .prgaIdx) hp, rfl, by decide⟩

/-- Settles O19: the offset is the one of SBOX[k]. -/
theorem sboxWindowRead : Obligations.SboxWindowRead := by
  unfold Obligations.SboxWindowRead
  intro s k off rest hoff hp
  obtain rfl : off = offsetOf (.sbox k) := BitVec.eq_of_toNat_eq (hoff.trans (offsetOf_sbox_toNat k).symm)
  exact step_of_register_read hp

/-- Settles O20, by `offsetOfAddress_inside` and `offsetOfAddress_outside`. -/
theorem windowSitsAtTheBase : Obligations.WindowSitsAtTheBase := by
  unfold Obligations.WindowSitsAtTheBase
  refine ⟨Nat.mul_mod_right _ _, fun off size w => ?_, fun addr size w h => ?_⟩
  · simp only [memRead, memWrite, offsetOfAddress_inside, Option.map_some, and_self]
  · simp only [memRead, memWrite, offsetOfAddress_outside h, Option.map_none, and_self]

end Sys2Proof.Machine
end

section
/-! SUPPORT. The command encoding (30_encoding.md R80 to R87): a word is its three fields, and it decodes to a command
exactly when they are 0, the command's opcode and the command's operand. -/

namespace Sys2Proof

/-! ### A word is its three fields -/

theorem word_eq_iff_fields (v w : Word) :
    v = w ↔ fieldRsvd v = fieldRsvd w ∧ fieldOpc v = fieldOpc w ∧ fieldOpnd v = fieldOpnd w := by
  have hv := v.isLt
  have hw := w.isLt
  simp only [fieldRsvd, fieldOpc, fieldOpnd, ← BitVec.toNat_inj, BitVec.extractLsb'_toNat, Nat.shiftRight_eq_div_pow]
  omega

/-- The mask of a row with an operand keeps RSVD and OPC and drops OPND (30_encoding.md R83). -/
theorem masked_eq_iff_fields (w v : Word) :
    w &&& 0xFFFFFF00#32 = v ↔ fieldRsvd w = fieldRsvd v ∧ fieldOpc w = fieldOpc v ∧ fieldOpnd v = 0#8 := by
  have hrsvd : fieldRsvd (w &&& 0xFFFFFF00#32) = fieldRsvd w := by
    rw [fieldRsvd, BitVec.extractLsb'_and]
    exact BitVec.and_allOnes
  have hopc : fieldOpc (w &&& 0xFFFFFF00#32) = fieldOpc w := by
    rw [fieldOpc, BitVec.extractLsb'_and]
    exact BitVec.and_allOnes
  have hopnd : fieldOpnd (w &&& 0xFFFFFF00#32) = 0#8 := by
    rw [fieldOpnd, BitVec.extractLsb'_and]
    exact BitVec.and_zero
  rw [word_eq_iff_fields, hrsvd, hopc, hopnd, eq_comm (a := 0#8)]

theorem fields_encode (i : Instr) :
    fieldRsvd (encode i) = 0#20 ∧ fieldOpc (encode i) = opcodeOf i ∧ fieldOpnd (encode i) = operandOf i := by
  have legal : Laws.EncodeLegal.Statement i := by
    cases i with
    | nop => exact Laws.EncodeLegal.nop
    | clr => exact Laws.EncodeLegal.clr
    | keyb b => exact Laws.EncodeLegal.keyb b
    | ksa => exact Laws.EncodeLegal.ksa
    | gen => exact Laws.EncodeLegal.gen
    | xor m => exact Laws.EncodeLegal.xor m
  obtain ⟨hrsvd, hopc, hopnd, -⟩ := legal
  exact ⟨hrsvd, hopc, hopnd⟩

theorem encode_eq_iff_fields (w : Word) (i : Instr) :
    w = encode i ↔ fieldRsvd w = 0#20 ∧ fieldOpc w = opcodeOf i ∧ fieldOpnd w = operandOf i := by
  obtain ⟨hrsvd, hopc, hopnd⟩ := fields_encode i
  rw [word_eq_iff_fields, hrsvd, hopc, hopnd]

/-! ### What the decoder accepts -/

theorem withoutOperand_eq_ok {w : Word} {i j : Instr} (h : withoutOperand w i = .ok j) : fieldOpnd w = 0#8 ∧ i = j := by
  unfold withoutOperand at h
  split at h
  · next h0 => exact ⟨h0, Except.ok.inj h⟩
  · cases h

/-- Inversion of a successful decode, by the rows of R87. -/
theorem fields_of_decode {w : Word} {i : Instr} (h : decode w = .ok i) :
    fieldRsvd w = 0#20 ∧ fieldOpc w = opcodeOf i ∧ fieldOpnd w = operandOf i := by
  unfold decode at h
  split at h
  · cases h
  · next hrsvd =>
    refine ⟨not_not.mp hrsvd, ?_⟩
    split at h
    -- KEYB and XOR take any operand, and the last branch is the reserved opcodes
    case h_3 hopc | h_6 hopc => cases h; exact ⟨BitVec.eq_of_toNat_eq hopc, rfl⟩
    case h_7 => cases h
    all_goals
      next hopc =>
        obtain ⟨hopnd, rfl⟩ := withoutOperand_eq_ok h
        exact ⟨BitVec.eq_of_toNat_eq hopc, hopnd⟩

theorem decode_eq_ok_iff (w : Word) (i : Instr) : decode w = .ok i ↔ w = encode i := by
  constructor
  · exact fun h => (encode_eq_iff_fields w i).mpr (fields_of_decode h)
  · rintro rfl
    exact Machine.decode_encode i

theorem decode_eq_ok_iff_fields (w : Word) (i : Instr) :
    decode w = .ok i ↔ fieldRsvd w = 0#20 ∧ fieldOpc w = opcodeOf i ∧ fieldOpnd w = operandOf i :=
  (decode_eq_ok_iff w i).trans (encode_eq_iff_fields w i)

/-- A row of the opcode map without an operand selects its one word (30_encoding.md R83). -/
theorem decode_eq_ok_iff_full_mask (w : Word) (i : Instr) : decode w = .ok i ↔ w &&& 0xFFFFFFFF#32 = encode i := by
  have hmask : w &&& 0xFFFFFFFF#32 = w := BitVec.and_allOnes
  rw [hmask, decode_eq_ok_iff]

/-- A row of the opcode map with an operand selects by its opcode and takes the low byte (30_encoding.md R83): `v` is the
row's match. -/
theorem decode_eq_ok_iff_mask {i : Instr} {v : Word} (hrsvd : fieldRsvd v = 0#20) (hopc : fieldOpc v = opcodeOf i)
    (hopnd : fieldOpnd v = 0#8) (w : Word) :
    decode w = .ok i ↔ w &&& 0xFFFFFF00#32 = v ∧ operandOf i = w.extractLsb' 0 8 := by
  rw [decode_eq_ok_iff_fields, masked_eq_iff_fields, hrsvd, hopc, fieldOpnd, eq_comm (a := operandOf i)]
  simp [hopnd, and_assoc]

theorem decode_eq_error_iff (w : Word) : (∃ e, decode w = .error e) ↔ ¬ ∃ i, decode w = .ok i := by
  cases decode w <;> simp

/-- Which opcodes and operands belong to a command (30_encoding.md R83, R85, R86). -/
theorem exists_instr_of_fields_iff (opc : BitVec 4) (opnd : Byte) :
    (∃ i, opc = opcodeOf i ∧ opnd = operandOf i) ↔
      ¬ (opc ∈ [0x0#4, 0x1#4, 0x3#4, 0x4#4] ∧ opnd ≠ 0#8) ∧ opc.toNat < 6 := by
  constructor
  · rintro ⟨i, rfl, rfl⟩
    cases i <;> simp [opcodeOf, operandOf]
  · rintro ⟨hopnd, hlt⟩
    have hopc : opc = 0x0#4 ∨ opc = 0x1#4 ∨ opc = 0x2#4 ∨ opc = 0x3#4 ∨ opc = 0x4#4 ∨ opc = 0x5#4 := by
      simp only [← BitVec.toNat_inj, BitVec.toNat_ofNat]
      omega
    have hzero : opc ∈ [0x0#4, 0x1#4, 0x3#4, 0x4#4] → opnd = 0#8 := fun hmem => not_not.mp fun hne => hopnd ⟨hmem, hne⟩
    obtain rfl | rfl | rfl | rfl | rfl | rfl := hopc
    · exact ⟨.nop, rfl, hzero (by decide)⟩
    · exact ⟨.clr, rfl, hzero (by decide)⟩
    · exact ⟨.keyb opnd, rfl, rfl⟩
    · exact ⟨.ksa, rfl, hzero (by decide)⟩
    · exact ⟨.gen, rfl, hzero (by decide)⟩
    · exact ⟨.xor opnd, rfl, rfl⟩

theorem decodeTableWord_of_decode {w : Word} {i : Instr} (h : decode w = .ok i) : decodeTableWord 32 w.toNat = some i := by
  simp [decodeTableWord, Nat.mod_eq_of_lt w.isLt, w.isLt, h]

/-! ### Every command once -/

/-- Every operand byte. -/
def allBytes : List Byte := (List.finRange 256).map BitVec.ofFin

@[simp] theorem mem_allBytes (b : Byte) : b ∈ allBytes := List.mem_map.mpr ⟨b.toFin, List.mem_finRange _, rfl⟩

@[simp] theorem allBytes_length : allBytes.length = 256 := by simp [allBytes]

theorem allBytes_nodup : allBytes.Nodup :=
  (List.nodup_finRange 256).map fun _ _ h => congrArg BitVec.toFin h

/-- Every command: the four without an operand, and KEYB and XOR of each byte (30_encoding.md R83). -/
def allInstrs : List Instr := [.nop, .clr, .ksa, .gen] ++ (allBytes.map .keyb ++ allBytes.map .xor)

theorem mem_allInstrs (i : Instr) : i ∈ allInstrs := by
  cases i <;> simp [allInstrs]

theorem allInstrs_length : allInstrs.length = 516 := by simp [allInstrs]

theorem allInstrs_nodup : allInstrs.Nodup := by
  have hkeyb : (allBytes.map Instr.keyb).Nodup := allBytes_nodup.map fun _ _ h => Instr.keyb.inj h
  have hxor : (allBytes.map Instr.xor).Nodup := allBytes_nodup.map fun _ _ h => Instr.xor.inj h
  have hoperand : (allBytes.map Instr.keyb ++ allBytes.map Instr.xor).Nodup :=
    hkeyb.append hxor (by simp [List.disjoint_left])
  exact List.Nodup.append (by decide) hoperand (by simp [List.disjoint_left])

theorem encode_injective : Function.Injective encode := fun i j h =>
  Except.ok.inj ((Machine.decode_encode i).symm.trans ((congrArg decode h).trans (Machine.decode_encode j)))

/-! ### The obligations on the encoding -/

/-- Settles O1, by `decode_encode` and `decodeTableWord_of_decode`. -/
theorem decodeOfEncodeIsTheCommand : Obligations.DecodeOfEncodeIsTheCommand := by
  unfold Obligations.DecodeOfEncodeIsTheCommand
  exact fun i => ⟨Machine.decode_encode i, decodeTableWord_of_decode (Machine.decode_encode i)⟩

/-- Settles O2, by `decode_eq_ok_iff`. -/
theorem legalWordIsTheEncodingOfItsCommand : Obligations.LegalWordIsTheEncodingOfItsCommand := by
  unfold Obligations.LegalWordIsTheEncodingOfItsCommand
  exact fun w i => (decode_eq_ok_iff w i).mp

/-- Settles O3: the rows by `decode_eq_ok_iff_full_mask` and `decode_eq_ok_iff_mask`, the reserved opcodes by the opcode
that a decoded word has. -/
theorem opcodeMapByMatchAndMask : Obligations.OpcodeMapByMatchAndMask := by
  unfold Obligations.OpcodeMapByMatchAndMask
  refine ⟨fun w => ⟨decode_eq_ok_iff_full_mask w .nop, decode_eq_ok_iff_full_mask w .clr,
    fun b => decode_eq_ok_iff_mask (i := .keyb b) rfl rfl rfl w, decode_eq_ok_iff_full_mask w .ksa,
    decode_eq_ok_iff_full_mask w .gen, fun m => decode_eq_ok_iff_mask (i := .xor m) rfl rfl rfl w, fun hge i h => ?_⟩,
    rfl, rfl, rfl, rfl, fun b => ⟨rfl, rfl⟩⟩
  obtain ⟨-, hopc, hopnd⟩ := fields_of_decode h
  obtain ⟨-, hlt⟩ := (exists_instr_of_fields_iff _ _).mp ⟨i, hopc, hopnd⟩
  exact absurd hge (Nat.not_le.mpr hlt)

/-- Settles O4: a word is legal exactly when RSVD is 0 and its opcode and operand belong to a command. -/
theorem illegalWordsAreTheReservedOnes : Obligations.IllegalWordsAreTheReservedOnes := by
  unfold Obligations.IllegalWordsAreTheReservedOnes
  intro w
  have hlegal : (∃ i, decode w = .ok i) ↔ fieldRsvd w = 0#20 ∧
      ¬ (fieldOpc w ∈ [0x0#4, 0x1#4, 0x3#4, 0x4#4] ∧ fieldOpnd w ≠ 0#8) ∧ (fieldOpc w).toNat < 6 := by
    simp only [decode_eq_ok_iff_fields, exists_and_left, exists_instr_of_fields_iff]
  rw [decode_eq_error_iff, hlegal, not_and_or, not_and_or, not_not, Nat.not_lt, fieldRsvd, fieldOpc, fieldOpnd]

/-- Settles O5: the list is the encodings of all commands. -/
theorem exactlyFiveHundredSixteenLegalWords : Obligations.ExactlyFiveHundredSixteenLegalWords := by
  unfold Obligations.ExactlyFiveHundredSixteenLegalWords
  refine ⟨allInstrs.map encode, allInstrs_nodup.map encode_injective, by rw [List.length_map, allInstrs_length],
    fun w => ?_⟩
  simp only [List.mem_map, mem_allInstrs, true_and, decode_eq_ok_iff, eq_comm (a := w)]

/-- Settles O6, by running the decoder. -/
theorem vectorWordsDecodeAsListed : Obligations.VectorWordsDecodeAsListed := by
  unfold Obligations.VectorWordsDecodeAsListed
  decide

end Sys2Proof
end

section
/-! SUPPORT. The assembler's access lines and pseudo-instructions (30_encoding.md R89, R90). -/

namespace Sys2Proof.Machine

/-- R89 writes a command's word as a sum, R83 as an or: the operand does not reach the opcode's bits. -/
theorem encode_eq_add (i : Instr) : encode i = (opcodeOf i).setWidth 32 <<< 8 + (operandOf i).setWidth 32 := by
  refine (BitVec.add_eq_or_of_and_eq_zero _ _ ?_).symm
  ext n hn
  by_cases h : n < 8
  · simp [h]
  · simp [BitVec.getLsbD_of_ge (operandOf i) n (Nat.not_lt.mp h)]

@[simp] theorem asmByte_toNat (b : Byte) : asmByte b.toNat = some b := by simp [asmByte, b.isLt]

theorem asmByte_of_ge {n : Nat} (h : 256 ≤ n) : asmByte n = none := if_neg (Nat.not_lt.mpr h)

theorem assembleLine_keyb (b : Byte) : assembleLine (.keyb b.toNat) = some (cmdWrite (encode (.keyb b))) := by
  rw [encode_eq_add, assembleLine, asmByte_toNat]
  rfl

theorem assembleLine_xor (m : Byte) : assembleLine (.xor m.toNat) = some (cmdWrite (encode (.xor m))) := by
  rw [encode_eq_add, assembleLine, asmByte_toNat]
  rfl

theorem assembleLine_rdSbox (k : Byte) : assembleLine (.rdSbox k.toNat) = some (regRead (.sbox k)) := by
  rw [assembleLine, asmByte_toNat]
  rfl

theorem assembleLine_word (w : Word) : assembleLine (.word w.toNat) = some (cmdWrite w) := by
  simp [assembleLine, w.isLt]

theorem assembleLine_of_operand_ge {n : Nat} (h : 256 ≤ n) :
    assembleLine (.keyb n) = none ∧ assembleLine (.xor n) = none ∧ assembleLine (.rdSbox n) = none := by
  simp [assembleLine, asmByte_of_ge h]

theorem expandEnc_eq_flatMap (bs : List Nat) : expandEnc bs = bs.flatMap fun b => [.xor b, .rdDout] := by
  induction bs with
  | nil => rfl
  | cons b bs ih => simp [expandEnc, ih]

theorem expandKs_eq_flatten (n : Nat) : expandKs n = (List.replicate n [AsmLine.gen, .rdDout]).flatten := by
  induction n with
  | zero => rfl
  | succ n ih => simp [expandKs, ih, List.replicate_succ]

/-- Settles O59, line by line with the `assembleLine` lemmas. -/
theorem assemblerLinesAreAccesses : Obligations.AssemblerLinesAreAccesses := by
  unfold Obligations.AssemblerLinesAreAccesses
  exact ⟨rfl, rfl, rfl, rfl,
    fun b => ⟨assembleLine_keyb b, assembleLine_xor b, offsetOf (.sbox b), offsetOf_sbox_toNat b, assembleLine_rdSbox b⟩,
    assembleLine_word, rfl, rfl, rfl, fun n => assembleLine_of_operand_ge⟩

/-- Settles O60, by `expandEnc_eq_flatMap` and `expandKs_eq_flatten`; the other expansions are their definitions. -/
theorem pseudoInstructionsExpand : Obligations.PseudoInstructionsExpand := by
  unfold Obligations.PseudoInstructionsExpand
  exact ⟨fun bs => rfl, rfl, rfl, expandEnc_eq_flatMap, expandKs_eq_flatten⟩

end Sys2Proof.Machine
end

section
/-! SUPPORT. Key loading and key scheduling (40_key_schedule.md R101 to R106): what KEYB leaves at each entry of K, the
table of KSA against the rule's own loop, and on which key bytes that table depends. -/

namespace Sys2Proof.Machine

/-! ### KEYB -/

/-- The append, read at an entry of K rather than at a key position. -/
theorem readTable_appendKey_key (b : Byte) {s : State} (h : s.keylen.toNat < 256) (m : Byte) :
    readTable (appendKey b s).key m = if m.toNat = s.keylen.toNat then b else readTable s.key m := by
  simpa only [keyByte, BitVec.ofNat_toNat, BitVec.setWidth_eq] using keyByte_appendKey b h m.isLt

theorem encode_keyb (b : Byte) : encode (.keyb b) = 0x00000200#32 + b.setWidth 32 := by
  rw [encode_eq_add]
  rfl

/-- Settles O24, by `encode_eq_add` and the two outcomes of KEYB. -/
theorem keybAppendsOrOverflows : Obligations.KeybAppendsOrOverflows := by
  unfold Obligations.KeybAppendsOrOverflows
  refine ⟨encode_keyb, fun s b h => ?_, fun s b h => exec_keyb_of_full b (Nat.not_lt.mpr h)⟩
  exact ⟨(appendKey b s).key, (appendKey b s).keylen, exec_keyb_of_room b h, appendKey_keylen_toNat b h,
    readTable_appendKey_key b h⟩

/-- Settles O56, by inversion of `exec`; with room only the entry at KEYLEN is written. -/
theorem frameOfKeyb : Obligations.FrameOfKeyb := by
  unfold Obligations.FrameOfKeyb
  intro b s t h
  cases exec_cases h with
  | keybRoom _ hlt =>
    refine ⟨rfl, rfl, rfl, rfl, rfl, rfl, rfl, rfl, fun n hn => ?_, fun _ => rfl, fun hle => absurd hlt hle.not_gt⟩
    rw [clearDvalid_key, readTable_appendKey_key b hlt, if_neg hn]
  | keybFull _ hge =>
    exact ⟨rfl, rfl, rfl, rfl, rfl, rfl, rfl, rfl, fun _ _ => rfl, fun hlt => absurd hlt hge, fun _ => ⟨rfl, fun _ => rfl⟩⟩
  | generatorStep _ hi | generatorRefused _ hi => simp [usesGenerator] at hi

/-! ### KSA -/

/-- The tables and running indices of the model's rounds are a run of the rule's loop (40_key_schedule.md R103). -/
theorem ksaTable_isSchedule (keyAt : Nat → Byte) : IsSchedule keyAt (ksaTable keyAt) :=
  ⟨fun n => (ksaRounds keyAt n).2, fun n => (ksaRounds keyAt n).1, readTable_identityTable, rfl,
    fun _ _ => ⟨rfl, swapTable_isSwap _ _ _⟩, rfl⟩

/-- Settles O25, by the two outcomes of KSA and `ksaTable_isSchedule`. -/
theorem ksaSchedulesOrRejectsTheEmptyKey : Obligations.KsaSchedulesOrRejectsTheEmptyKey := by
  unfold Obligations.KsaSchedulesOrRejectsTheEmptyKey
  exact ⟨rfl, fun s h => ⟨_, ksaTable_isSchedule _, exec_ksa_of_key h⟩, fun s h => exec_ksa_of_empty h⟩

/-- Settles O57, by inversion of `exec` and the field lemmas of the two outcomes. -/
theorem frameOfKsa : Obligations.FrameOfKsa := by
  unfold Obligations.FrameOfKsa
  intro s t h
  cases exec_cases h with
  | ksaEmpty h0 => simp [h0]
  | ksaKey hne => simp [hne]
  | generatorStep _ hi | generatorRefused _ hi => simp [usesGenerator] at hi

/-- Settles O27, since each round of the schedule is a genuine swap (`ksaTable_isPermutation`). -/
theorem ksaLeavesAPermutation : Obligations.KsaLeavesAPermutation := by
  unfold Obligations.KsaLeavesAPermutation
  exact fun s h => ⟨_, exec_ksa_of_key h, ksaTable_isPermutation _⟩

/-! ### On which key bytes the schedule depends -/

/-- Settles O26, by `ksaTable_of_sameKey`; the rest of what KSA leaves is constant. -/
theorem ksaDependsOnTheHeldKeyOnly : Obligations.KsaDependsOnTheHeldKeyOnly := by
  unfold Obligations.KsaDependsOnTheHeldKeyOnly
  intro s t hkey hs
  have ht : t.keylen ≠ 0#9 := hkey.1 ▸ hs
  refine ⟨_, _, exec_ksa_of_key hs, exec_ksa_of_key ht, ?_⟩
  rw [ksaTable_of_sameKey hkey hs]
  simp

/-- A key whose length is a multiple of L and which repeats with period L is scheduled as its first L bytes are: reducing
an index by the long length first does not change it mod L (40_key_schedule.md R106). -/
theorem ksaTable_of_repeated {f g : Nat → Byte} {l m : Nat} (hpos : 0 < m * l)
    (h : ∀ n, n < m * l → g n = f (n % l)) : (ksaTable fun n => g (n % (m * l))) = ksaTable fun n => f (n % l) :=
  ksaTable_congr fun n _ => by rw [h _ (Nat.mod_lt n hpos), Nat.mod_mul_left_mod]

/-- Settles O28, by `ksaTable_of_repeated`. -/
theorem repeatedKeySchedulesAlike : Obligations.RepeatedKeySchedulesAlike := by
  unfold Obligations.RepeatedKeySchedulesAlike
  intro s t m hL hm _ hlen hkey
  have hpos : 0 < m * s.keylen.toNat := Nat.mul_pos hm hL
  have hs : s.keylen ≠ 0#9 := fun h0 => by simp [h0] at hL
  have ht : t.keylen ≠ 0#9 := fun h0 => by simp [← hlen, h0] at hpos
  refine ⟨_, _, exec_ksa_of_key hs, exec_ksa_of_key ht, ?_⟩
  rw [startKeystream_sbox, startKeystream_sbox, hlen]
  exact ksaTable_of_repeated hpos (hlen ▸ hkey)

/-- Settles O29, by `hostCommands_scheduleCommands` and `sourceSchedule_take`. -/
theorem longKeysScheduleLikeTheirFirst256Bytes : Obligations.LongKeysScheduleLikeTheirFirst256Bytes := by
  unfold Obligations.LongKeysScheduleLikeTheirFirst256Bytes
  intro key s hlong
  have hne : key ≠ [] := List.ne_nil_of_length_pos (by omega)
  obtain ⟨u, tbl, hu, happ, hheld, htbl⟩ := hostCommands_scheduleCommands hne s
  have hkovf : u.kovf = true := happ.kovf.mpr (.inr (by rw [List.length_append]; omega))
  have hkeylen : u.keylen = 256#9 := by
    apply BitVec.eq_of_toNat_eq
    rw [← heldKey_length, hheld, List.length_take, Nat.min_eq_left (by omega), BitVec.toNat_ofNat]
  exact ⟨_, hu, hkovf, hkeylen, hheld, htbl, (sourceSchedule_take key).trans htbl⟩

end Sys2Proof.Machine
end

section
/-! SUPPORT. Keystream generation (41_keystream.md R120 to R127): a GEN or XOR is one step of the source's generator on S, I
and J, every other command but CLR and KSA leaves these three alone, and so each run of the generator emits the source's
keystream. -/

namespace Sys2Proof.Machine

/-! ### The source's generator -/

/-- The part of the state that the generator runs on, as the source's generator state (41_keystream.md R120). -/
def State.generator (s : State) : SourceGen := ⟨s.sbox, s.i, s.j⟩

/-- One output position over exact integers is one PRGA step over bytes (41_keystream.md R120, R121). -/
theorem sourceNext_generator (s : State) : sourceNext s.generator = ((prgaStep s).1.generator, (prgaStep s).2) := by
  have hmod (a b : Byte) : BitVec.ofNat 8 ((a.toNat + b.toNat) % 256) = a + b := by
    apply BitVec.eq_of_toNat_eq
    simp
  have hinc : BitVec.ofNat 8 ((s.i.toNat + 1) % 256) = s.i + 1#8 := hmod s.i 1#8
  simp only [sourceNext, State.generator, prgaStep, hinc, hmod]

/-- The source's generator state behind its next n keystream bytes. -/
def sourceAfter (g : SourceGen) : Nat → SourceGen
  | 0 => g
  | n + 1 => sourceAfter (sourceNext g).1 n

theorem sourceAfter_i (g : SourceGen) (n : Nat) : (sourceAfter g n).i.toNat = (g.i.toNat + n) % 256 := by
  induction n generalizing g with
  | zero => exact (Nat.mod_eq_of_lt g.i.isLt).symm
  | succ n ih =>
    have hnext : (sourceNext g).1.i.toNat = (g.i.toNat + 1) % 256 := by simp [sourceNext]
    rw [sourceAfter, ih, hnext, Nat.mod_add_mod, Nat.add_assoc, Nat.add_comm 1]

@[simp] theorem sourceBytes_length (g : SourceGen) (n : Nat) : (sourceBytes g n).length = n := by
  induction n generalizing g with
  | zero => rfl
  | succ n ih => rw [sourceBytes, List.length_cons, ih]

/-- A shorter keystream is the beginning of a longer one (41_keystream.md R124). -/
theorem sourceBytes_take (g : SourceGen) {k n : Nat} (h : k ≤ n) : (sourceBytes g n).take k = sourceBytes g k := by
  induction k generalizing g n with
  | zero => rfl
  | succ k ih =>
    obtain ⟨n, rfl⟩ := Nat.exists_eq_succ_of_ne_zero (Nat.ne_zero_of_lt h)
    rw [sourceBytes, sourceBytes, List.take_succ_cons, ih _ (Nat.le_of_succ_le_succ h)]

/-! ### GEN and XOR -/

theorem resultByte_resultByte (i : Instr) (ks : Byte) : resultByte i (resultByte i ks) = ks := by
  cases i with
  | xor m => simp [resultByte]
  | nop | clr | keyb | ksa | gen => rfl

/-- With an S-box scheduled, GEN and XOR differ in the result byte only. -/
theorem exec_generator_of_scheduled {i : Instr} (hi : usesGenerator i = true) {s : State} (hs : s.svalid = true) :
    exec i s = .next (latchResult (resultByte i (prgaStep s).2) (prgaStep s).1) := by
  obtain rfl | ⟨m, rfl⟩ := (usesGenerator_iff i).mp hi
  · exact exec_gen_of_scheduled hs
  · exact exec_xor_of_scheduled m hs

/-- The index of the output byte is the same sum before and after the swap (41_keystream.md R121). -/
theorem IsSwap.readTable_add {t u : Table} {a b : Byte} (h : IsSwap t a b u) :
    readTable u a + readTable u b = readTable t a + readTable t b := by
  obtain ⟨ha, hb, -⟩ := h
  rw [ha, hb, BitVec.add_comm]

/-- Settles O31, by the two outcomes of GEN. -/
theorem genRunsOneGeneratorStep : Obligations.GenRunsOneGeneratorStep := by
  unfold Obligations.GenRunsOneGeneratorStep
  refine ⟨rfl, fun s hs => ?_, fun s hs => exec_gen_of_unscheduled hs⟩
  have hswap := swapTable_isSwap s.sbox (s.i + 1#8) (s.j + readTable s.sbox (s.i + 1#8))
  exact ⟨_, _, _, rfl, rfl, hswap, hswap.readTable_add, exec_gen_of_scheduled hs⟩

/-- Settles O34, by `exec_generator_of_scheduled`, in which K and KEYLEN do not occur. -/
theorem generatorKeepsThePermutation : Obligations.GeneratorKeepsThePermutation := by
  unfold Obligations.GeneratorKeepsThePermutation
  intro s i hi hs hp
  exact ⟨_, exec_generator_of_scheduled hi hs, prgaStep_isPermutation hp, rfl, rfl,
    fun k n => exec_generator_of_scheduled (s := { s with key := k, keylen := n }) hi hs⟩

/-- Settles O58, by inversion of `exec`; a step changes S by one genuine swap. -/
theorem frameOfGenAndXor : Obligations.FrameOfGenAndXor := by
  unfold Obligations.FrameOfGenAndXor
  intro i s t hi h
  cases exec_cases h with
  | generatorStep _ _ hs =>
    obtain ⟨-, -, hne⟩ := swapTable_isSwap s.sbox (s.i + 1#8) (s.j + readTable s.sbox (s.i + 1#8))
    exact ⟨rfl, rfl, rfl, rfl, rfl, rfl, fun _ => ⟨rfl, hne⟩, fun hs' => by simp [hs] at hs'⟩
  | generatorRefused _ _ hs => simp [hs]
  | nop | clr | keybRoom | keybFull | ksaEmpty | ksaKey => simp [usesGenerator] at hi

/-! ### The generator driven by the host -/

@[simp] theorem withResponse_withResponse (r r' : Response) (s : State) :
    withResponse r (withResponse r' s) = withResponse r s := rfl

theorem hostRead_eq (r : ReadReg) (s : State) :
    hostRead r s = some (readRegister r s, withResponse (.data (readRegister r s)) s) := by
  have hstep : step (withPending (.access (.read (offsetOf r) .word) :: s.pending) s) =
      .next (withResponse (.data (readRegister r s)) s) := step_of_register_read rfl
  simp [hostRead, portAccess, hstep]

/-- A command followed by a read of DOUT yields the byte that the command left there. -/
theorem hostByte_of_exec {i : Instr} {s u : State} (h : exec i s = .next u) :
    ∃ r, hostByte i s = some (u.dout, withResponse r u) := by
  have hdout : (readRegister .dout (withResponse .written u)).setWidth 8 = u.dout := by simp [readRegister]
  refine ⟨.data (readRegister .dout (withResponse .written u)), ?_⟩
  simp only [hostByte, hostCommand_of_exec h, hostRead_eq, hdout, withResponse_withResponse]

/-- A GEN or XOR followed by a read of DOUT is one output position of the source's generator. -/
theorem hostByte_of_generator {i : Instr} (hi : usesGenerator i = true) {s : State} (hs : s.svalid = true) :
    ∃ t, hostByte i s = some (resultByte i (sourceNext s.generator).2, t) ∧ t.svalid = true ∧
      t.generator = (sourceNext s.generator).1 := by
  rw [sourceNext_generator]
  obtain ⟨r, hr⟩ := hostByte_of_exec (exec_generator_of_scheduled hi hs)
  exact ⟨_, hr, hs, rfl⟩

/-- GENs and XORs, DOUT read after each, combine the source's keystream with their operands, without a limit on their number
(41_keystream.md R125, 42_combine.md R145). -/
theorem hostBytes_of_generator {is : List Instr} (hi : ∀ i ∈ is, usesGenerator i = true) {s : State}
    (hs : s.svalid = true) :
    ∃ t, hostBytes is s = some (List.zipWith resultByte is (sourceBytes s.generator is.length), t) ∧ t.svalid = true ∧
      t.generator = sourceAfter s.generator is.length := by
  induction is generalizing s with
  | nil => exact ⟨s, rfl, hs, rfl⟩
  | cons i is ih =>
    obtain ⟨hhead, htail⟩ := List.forall_mem_cons.mp hi
    obtain ⟨t, ht, hts, htg⟩ := hostByte_of_generator hhead hs
    obtain ⟨u, hu, hus, hug⟩ := ih htail hts
    rw [htg] at hu hug
    exact ⟨u, by simp only [hostBytes, ht, hu, List.length_cons, sourceBytes, List.zipWith_cons_cons], hus, hug⟩

/-- A GEN leaves the keystream byte itself (41_keystream.md R123). -/
theorem zipWith_resultByte_gen {bs : List Byte} {n : Nat} (h : bs.length = n) :
    List.zipWith resultByte (List.replicate n .gen) bs = bs := by
  subst h
  induction bs with
  | nil => rfl
  | cons b bs ih => rw [List.length_cons, List.replicate_succ, List.zipWith_cons_cons, ih, resultByte]

theorem hostKeystream_eq (n : Nat) {s : State} (hs : s.svalid = true) :
    ∃ t, hostKeystream n s = some (sourceBytes s.generator n, t) ∧ t.generator = sourceAfter s.generator n := by
  obtain ⟨t, ht, -, htg⟩ :=
    hostBytes_of_generator (is := List.replicate n .gen) (fun i h => List.eq_of_mem_replicate h ▸ rfl) hs
  rw [List.length_replicate, zipWith_resultByte_gen (sourceBytes_length _ n)] at ht
  rw [List.length_replicate] at htg
  exact ⟨t, ht, htg⟩

/-- Settles O36, by `hostKeystream_eq` and `sourceAfter_i`. -/
theorem indexCountsGeneratorSteps : Obligations.IndexCountsGeneratorSteps := by
  unfold Obligations.IndexCountsGeneratorSteps
  intro s n hs hi
  obtain ⟨t, ht, htg⟩ := hostKeystream_eq n hs
  refine ⟨_, t, ht, sourceBytes_length _ n, ?_⟩
  calc t.i.toNat = (sourceAfter s.generator n).i.toNat := by rw [← htg]; rfl
    _ = (s.i.toNat + n) % 256 := sourceAfter_i _ n
    _ = n % 256 := by simp [hi]

/-! ### The keystream behind a successful KSA -/

theorem eq_startKeystream_of_exec_ksa {s t : State} (hne : s.keylen ≠ 0#9) (h : exec .ksa s = .next t) :
    t = startKeystream (ksaTable fun n => keyByte s (n % s.keylen.toNat)) s :=
  Host.Outcome.next.inj (h.symm.trans (exec_ksa_of_key hne))

/-- GENs right behind a KSA emit the source's keystream of the scheduled table (41_keystream.md R120). -/
theorem hostKeystream_startKeystream (n : Nat) (tbl : Table) (s : State) :
    ∃ t, hostKeystream n (startKeystream tbl s) = some (sourceKeystream tbl n, t) := by
  obtain ⟨t, ht, -⟩ := hostKeystream_eq n (startKeystream_svalid tbl s)
  exact ⟨t, ht⟩

/-- Settles O37, by `hostKeystream_startKeystream`, since both generators start from the table of the
one key (`ksaTable_of_sameKey`). -/
theorem keystreamDependsOnTheKeyOnly : Obligations.KeystreamDependsOnTheKeyOnly := by
  unfold Obligations.KeystreamDependsOnTheKeyOnly
  intro s t s' t' n hkey hs hs' ht'
  have ht : t.keylen ≠ 0#9 := hkey.1 ▸ hs
  obtain rfl := eq_startKeystream_of_exec_ksa hs hs'
  obtain rfl := eq_startKeystream_of_exec_ksa ht ht'
  rw [ksaTable_of_sameKey hkey hs]
  have hks := hostKeystream_startKeystream n (ksaTable fun n => keyByte s (n % s.keylen.toNat))
  obtain ⟨u, hu⟩ := hks s
  obtain ⟨v, hv⟩ := hks t
  exact ⟨_, u, v, hu, hv⟩

/-! ### The generator among other events (41_keystream.md R124) -/

/-- What an event that starts no new keystream does to a scheduled generator: a GEN or XOR takes its next byte, and any
other event leaves it alone. -/
inductive StreamCase (s : State) (e : HostEvent) (t : State) : Prop where
  | byte (i : Instr) (hcmd : commandOf e = some i) (hi : usesGenerator i = true)
      (hdout : resultByte i t.dout = (sourceNext s.generator).2) (hgen : t.generator = (sourceNext s.generator).1)
  | noByte (hcmd : ∀ i, commandOf e = some i → usesGenerator i = false) (hgen : t.generator = s.generator)

theorem ExecCase.generator_of_keeps {s t : State} {i : Instr} (h : ExecCase s i t) (hk : i ≠ .ksa) (hc : i ≠ .clr)
    (hg : usesGenerator i = false) : t.generator = s.generator := by
  obtain ⟨hi, hj, -⟩ := h.generator_eq hk hc hg
  simp only [State.generator, h.sbox_eq hk hg, hi, hj]

theorem keepsKeystream_iff (e : HostEvent) :
    keepsKeystream e = true ↔ isReset e = false ∧ commandOf e ≠ some .clr ∧ commandOf e ≠ some .ksa := by
  simp [keepsKeystream, and_assoc]

theorem EventCase.svalid_of_keeps {s t : State} {e : HostEvent} (h : EventCase s e t) (hkeep : keepsKeystream e = true)
    (hs : s.svalid = true) : t.svalid = true := by
  obtain ⟨hreset, hclr, hksa⟩ := (keepsKeystream_iff e).mp hkeep
  cases h with
  | command i u hcmd _ _ hexec =>
    rw [hcmd, ne_eq, Option.some_inj] at hclr hksa
    exact hexec.svalid_iff.mpr (.inr ⟨hksa, hclr, hs⟩)
  | illegal | other => simpa using hs
  | reset _ _ hr => simp [hr] at hreset

theorem EventCase.streamCase {s t : State} {e : HostEvent} (h : EventCase s e t) (hkeep : keepsKeystream e = true)
    (hs : s.svalid = true) : StreamCase s e t := by
  obtain ⟨hreset, hclr, hksa⟩ := (keepsKeystream_iff e).mp hkeep
  cases h with
  | command i u hcmd _ _ hexec =>
    cases hi : usesGenerator i with
    | true =>
      cases hexec with
      | generatorStep =>
        exact .byte i hcmd hi (by rw [sourceNext_generator]; exact resultByte_resultByte i _)
          (by rw [sourceNext_generator]; rfl)
      | generatorRefused _ _ hs' => simp [hs] at hs'
      | nop | clr | keybRoom | keybFull | ksaEmpty | ksaKey => simp [usesGenerator] at hi
    | false =>
      rw [hcmd, ne_eq, Option.some_inj] at hclr hksa
      exact .noByte (by simp [hcmd, hi]) (hexec.generator_of_keeps hksa hclr hi)
  | illegal hcmd => exact .noByte (by simp [hcmd]) (by simp [State.generator])
  | other _ hcmd => exact .noByte (by simp [hcmd]) rfl
  | reset _ _ hr => simp [hr] at hreset

section

variable {e : HostEvent} {i : Instr}

theorem generatorCommands_cons_byte (hcmd : commandOf e = some i) (hi : usesGenerator i = true) (es : List HostEvent) :
    generatorCommands (e :: es) = generatorCommands es + 1 := by
  simp [generatorCommands, hcmd, hi]

theorem generatorCommands_cons_noByte (hcmd : ∀ i, commandOf e = some i → usesGenerator i = false)
    (es : List HostEvent) : generatorCommands (e :: es) = generatorCommands es := by
  cases h : commandOf e with
  | none => simp [generatorCommands, h]
  | some i => simp [generatorCommands, h, hcmd i h]

variable {s t : State} (ht : step (withPending (e :: s.pending) s) = .next t)
include ht

theorem keystreamUsed_cons_byte (hcmd : commandOf e = some i) (hi : usesGenerator i = true) (es : List HostEvent) :
    keystreamUsed (e :: es) s = (keystreamUsed es t).map fun bs => resultByte i t.dout :: bs := by
  obtain rfl | ⟨m, rfl⟩ := (usesGenerator_iff i).mp hi <;> simp [keystreamUsed, ht, hcmd, resultByte]

theorem keystreamUsed_cons_noByte (hcmd : ∀ i, commandOf e = some i → usesGenerator i = false) (es : List HostEvent) :
    keystreamUsed (e :: es) s = keystreamUsed es t := by
  cases h : commandOf e with
  | none => simp [keystreamUsed, ht, h]
  | some i =>
    have hi := hcmd i h
    cases i with
    | gen | xor => simp [usesGenerator] at hi
    | nop | clr | keyb | ksa => simp [keystreamUsed, ht, h]

end

/-- The bytes used by events that start no new keystream are the source's, from wherever the generator stands. -/
theorem keystreamUsed_eq {es : List HostEvent} (hkeep : ∀ e ∈ es, keepsKeystream e = true) {s : State}
    (hs : s.svalid = true) : keystreamUsed es s = some (sourceBytes s.generator (generatorCommands es)) := by
  induction es generalizing s with
  | nil => rfl
  | cons e es ih =>
    obtain ⟨hhead, htail⟩ := List.forall_mem_cons.mp hkeep
    obtain ⟨t, ht⟩ := step_answers_next (withPending (e :: s.pending) s)
    have hcase := step_eventCase rfl ht
    have hrest := ih htail (hcase.svalid_of_keeps hhead hs)
    cases hcase.streamCase hhead hs with
    | byte i hcmd hi hdout hgen =>
      rw [hgen] at hrest
      rw [keystreamUsed_cons_byte ht hcmd hi, generatorCommands_cons_byte hcmd hi, hrest, hdout]
      rfl
    | noByte hcmd hgen =>
      rw [hgen] at hrest
      rw [keystreamUsed_cons_noByte ht hcmd, generatorCommands_cons_noByte hcmd, hrest]
      rfl

/-- Settles O35: KSA schedules the held key as the source does (`sourceSchedule_heldKey`), and from there `keystreamUsed_eq`
follows the generator. -/
theorem streamingEqualsTheSourceKeystream : Obligations.StreamingEqualsTheSourceKeystream := by
  unfold Obligations.StreamingEqualsTheSourceKeystream
  intro s t es n hne _ hksa hkeep hle
  obtain rfl := eq_startKeystream_of_exec_ksa hne hksa
  refine ⟨_, sourceSchedule_heldKey hne, ?_⟩
  rw [sourceKeystream, sourceBytes_take _ hle, keystreamUsed_eq hkeep (startKeystream_svalid _ s)]
  rfl

end Sys2Proof.Machine
end

section
/-! SUPPORT. The combiner and the cipher procedure (42_combine.md R140 to R149): XORs combine the message with the source's
keystream and keep the held key, procedure R145 is the source's cipher, and with no S-box scheduled every XOR only fails. -/

namespace Sys2Proof.Machine

/-! ### XOR -/

theorem encode_xor (m : Byte) : encode (.xor m) = 0x00000500#32 + m.setWidth 32 := by
  rw [encode_eq_add]
  rfl

/-- Settles O32, by `encode_xor` and the two outcomes of XOR. -/
theorem xorCombinesOneByte : Obligations.XorCombinesOneByte := by
  unfold Obligations.XorCombinesOneByte
  refine ⟨encode_xor, fun s m hs => ?_, fun s m hs => exec_xor_of_unscheduled m hs⟩
  have hswap := swapTable_isSwap s.sbox (s.i + 1#8) (s.j + readTable s.sbox (s.i + 1#8))
  exact ⟨_, _, _, _, rfl, rfl, hswap, rfl, exec_xor_of_scheduled m hs⟩

/-- Settles O33: with an S-box scheduled by `0 ^ ks = ks`, and without one both commands fail alike. -/
theorem xorZeroIsGen : Obligations.XorZeroIsGen := by
  unfold Obligations.XorZeroIsGen
  intro s
  cases hs : s.svalid with
  | true => rw [exec_xor_of_scheduled _ hs, exec_gen_of_scheduled hs, BitVec.zero_xor]
  | false => rw [exec_xor_of_unscheduled _ hs, exec_gen_of_unscheduled hs]

/-! ### Lists of bytes -/

/-- Combining twice with one keystream cancels (42_combine.md R146). -/
theorem zipWith_xor_zipWith_xor {ms ks : List Byte} (h : ms.length = ks.length) :
    List.zipWith (· ^^^ ·) (List.zipWith (· ^^^ ·) ms ks) ks = ms := by
  induction ms generalizing ks with
  | nil => rfl
  | cons m ms ih =>
    cases ks with
    | nil => simp at h
    | cons k ks => simp [ih (Nat.succ.inj h)]

/-- The keystream behind its first m bytes is that of the generator advanced by m positions. -/
theorem sourceBytes_drop (g : SourceGen) (m n : Nat) :
    (sourceBytes g (m + n)).drop m = sourceBytes (sourceAfter g m) n := by
  induction m generalizing g with
  | zero => rw [Nat.zero_add, List.drop_zero, sourceAfter]
  | succ m ih => rw [Nat.succ_add, sourceBytes, List.drop_succ_cons, ih, sourceAfter]

/-! ### XORs on a scheduled S-box -/

/-- A command that is neither CLR nor KEYB keeps the held key. -/
theorem ExecCase.heldKey_eq {s t : State} {i : Instr} (h : ExecCase s i t) (hc : i ≠ .clr) (hk : ∀ b, i ≠ .keyb b) :
    heldKey t = heldKey s := by
  unfold heldKey keyByte
  rw [h.keylen_eq hc hk, h.key_eq hk]

theorem hostByte_heldKey {s t : State} {m b : Byte} (h : hostByte (.xor m) s = some (b, t)) : heldKey t = heldKey s := by
  obtain ⟨u, hu, hcase⟩ := exec_next_cases (.xor m) s
  obtain ⟨r, hr⟩ := hostByte_of_exec hu
  cases hr.symm.trans h
  exact hcase.heldKey_eq nofun nofun

theorem hostBytes_heldKey {ms bs : List Byte} {s t : State} (h : hostBytes (ms.map .xor) s = some (bs, t)) :
    heldKey t = heldKey s := by
  induction ms generalizing s bs with
  | nil =>
    cases h
    rfl
  | cons m ms ih =>
    rw [List.map_cons, hostBytes] at h
    split at h
    · next b u hu =>
      split at h
      · next cs v hv =>
        cases h
        exact (ih hv).trans (hostByte_heldKey hu)
      · cases h
    · cases h

/-- XORs, DOUT read after each, combine the message with the generator's next bytes (42_combine.md R145). -/
theorem hostBytes_xor (ms : List Byte) {s : State} (hs : s.svalid = true) :
    ∃ t, hostBytes (ms.map .xor) s = some (List.zipWith (· ^^^ ·) ms (sourceBytes s.generator ms.length), t) ∧
      t.svalid = true ∧ t.generator = sourceAfter s.generator ms.length ∧ heldKey t = heldKey s := by
  have hi : ∀ i ∈ ms.map Instr.xor, usesGenerator i = true := List.forall_mem_map.mpr fun _ _ => rfl
  obtain ⟨t, ht, hts, htg⟩ := hostBytes_of_generator hi hs
  rw [List.length_map] at ht htg
  rw [List.zipWith_map_left] at ht
  exact ⟨t, ht, hts, htg, hostBytes_heldKey ht⟩

/-! ### The procedure R145 -/

theorem sourceSchedule_nil : sourceSchedule [] = none := if_pos rfl

theorem ne_nil_of_sourceSchedule {key : List Byte} {tbl : Table} (h : sourceSchedule key = some tbl) : key ≠ [] := by
  rintro rfl
  cases h.symm.trans sourceSchedule_nil

/-- KEYERR is bit 2 of STATUS (20_memory.md R59). -/
theorem statusWord_getLsbD_keyerr (s : State) : (statusWord s).getLsbD 2 = s.keyerr := by
  rw [statusWord_getLsbD]
  simp

/-- SVALID is bit 0 of STATUS (20_memory.md R59). -/
theorem statusWord_getLsbD_svalid (s : State) : (statusWord s).getLsbD 0 = s.svalid := by
  rw [statusWord_getLsbD]
  simp

section
variable {key : List Byte} {s t : State} (hsched : hostCommands (scheduleCommands key) s = some t)
include hsched

/-- The STATUS check finds KEYERR and ends the procedure before the first message byte (42_combine.md R145). -/
theorem hostCipher_of_keyerr (hkeyerr : t.keyerr = true) (msg : List Byte) :
    hostCipher key msg s = some (.invalidKey, withResponse (.data (statusWord t)) t) := by
  simp only [hostCipher, hsched, hostRead_eq, readRegister, statusWord_getLsbD_keyerr, hkeyerr, Bool.true_or, if_true]

/-- The STATUS check passes, and the procedure's output is what the XORs leave in DOUT (42_combine.md R145). -/
theorem hostCipher_of_scheduled (hkeyerr : t.keyerr = false) (hsvalid : t.svalid = true) {msg out : List Byte} {u : State}
    (hbytes : hostBytes (msg.map .xor) (withResponse (.data (statusWord t)) t) = some (out, u)) :
    hostCipher key msg s = some (.bytes out, u) := by
  simp only [hostCipher, hsched, hostRead_eq, readRegister, statusWord_getLsbD_keyerr, statusWord_getLsbD_svalid,
    hkeyerr, hsvalid, hbytes, Bool.not_true, Bool.or_false, Bool.false_eq_true, if_false]

end

/-- Procedure R145 on a key that has a schedule: the message combined with the source's keystream, and what the procedure
leaves for the next command. -/
theorem hostCipher_of_sourceSchedule {key : List Byte} {tbl : Table} (htbl : sourceSchedule key = some tbl)
    (msg : List Byte) (s : State) :
    ∃ t, hostCipher key msg s = some (.bytes (List.zipWith (· ^^^ ·) msg (sourceKeystream tbl msg.length)), t) ∧
      t.svalid = true ∧ t.generator = sourceAfter ⟨tbl, 0#8, 0#8⟩ msg.length ∧ heldKey t = key.take 256 := by
  obtain ⟨u, tbl', hu, happ, hheld, htbl'⟩ := hostCommands_scheduleCommands (ne_nil_of_sourceSchedule htbl) s
  obtain rfl : tbl = tbl' := Option.some.inj (htbl.symm.trans htbl')
  set v := withResponse .written (startKeystream tbl u)
  obtain ⟨t, ht, hts, htg, htk⟩ := hostBytes_xor msg (s := withResponse (.data (statusWord v)) v) rfl
  exact ⟨t, hostCipher_of_scheduled hu happ.keyerr rfl ht, hts, htg, htk.trans hheld⟩

/-- What CLR and a KSA leave (`hostCommands_scheduleCommands_nil`): no key is held, and the KSA has failed with InvalidKey. -/
def keylessState (s : State) : State :=
  withResponse .written (raiseCmdError .invalidKey (clearSvalid (withResponse .written (clearState s))))

theorem hostCommands_scheduleCommands_nil (s : State) : hostCommands (scheduleCommands []) s = some (keylessState s) := by
  rw [scheduleCommands, List.map_nil, List.nil_append, hostCommands_cons (exec_clr s),
    hostCommands_cons (exec_ksa_of_empty rfl), hostCommands, keylessState]

theorem hostCipher_nil (msg : List Byte) (s : State) :
    hostCipher [] msg s = some (.invalidKey, withResponse (.data (statusWord (keylessState s))) (keylessState s)) :=
  hostCipher_of_keyerr (hostCommands_scheduleCommands_nil s) rfl msg

/-- Settles O38, by `hostCipher_of_sourceSchedule` and `hostCipher_nil`. -/
theorem cipherProcedureIsTheSourceCipher : Obligations.CipherProcedureIsTheSourceCipher := by
  unfold Obligations.CipherProcedureIsTheSourceCipher
  refine fun key msg s => ⟨fun hne => ?_, ?_⟩
  · have htbl := sourceSchedule_eq hne
    obtain ⟨t, ht, -⟩ := hostCipher_of_sourceSchedule htbl msg s
    exact ⟨_, t, by rw [sourceCipher, htbl, Option.map_some], ht, by simp [sourceKeystream]⟩
  · rintro rfl
    exact ⟨by rw [sourceCipher, sourceSchedule_nil, Option.map_none], _, hostCipher_nil msg s⟩

/-- Settles O40, as a part of O38. -/
theorem cipherKeepsTheLength : Obligations.CipherKeepsTheLength := by
  unfold Obligations.CipherKeepsTheLength
  intro key msg s hne
  obtain ⟨out, t, -, ht, hlen⟩ := (cipherProcedureIsTheSourceCipher key msg s).1 hne
  refine ⟨out, t, ht, hlen, ?_⟩
  rintro rfl
  exact List.eq_nil_of_length_eq_zero hlen

/-- Settles O41: the result is InvalidKey or is given by the source's schedule, in which the state does not occur. -/
theorem cipherIsDeterministic : Obligations.CipherIsDeterministic := by
  unfold Obligations.CipherIsDeterministic
  intro key msg s t
  obtain rfl | hne := eq_or_ne key []
  · exact ⟨_, _, _, hostCipher_nil msg s, hostCipher_nil msg t⟩
  · obtain ⟨u, hu, -⟩ := hostCipher_of_sourceSchedule (sourceSchedule_eq hne) msg s
    obtain ⟨v, hv, -⟩ := hostCipher_of_sourceSchedule (sourceSchedule_eq hne) msg t
    exact ⟨_, u, v, hu, hv⟩

/-! ### Deciphering (42_combine.md R146) -/

/-- A KSA while a key is still held, as far as the buffer took it, schedules that key again. -/
theorem hostCommand_ksa_of_heldKey {key : List Byte} {tbl : Table} (htbl : sourceSchedule key = some tbl) {s : State}
    (hheld : heldKey s = key.take 256) : hostCommand .ksa s = some (withResponse .written (startKeystream tbl s)) := by
  rw [← sourceSchedule_take, ← hheld] at htbl
  have hkey : s.keylen ≠ 0#9 := fun h0 => ne_nil_of_sourceSchedule htbl (heldKey_eq_nil h0)
  obtain rfl := Option.some.inj (htbl.symm.trans (sourceSchedule_heldKey hkey))
  exact hostCommand_of_exec (exec_ksa_of_key hkey)

/-- Settles O39: both ways back combine the output with the first call's keystream (`zipWith_xor_zipWith_xor`), and the XORs
without a KSA go on with the bytes behind it (`sourceBytes_drop`). -/
theorem cipherIsSelfInverse : Obligations.CipherIsSelfInverse := by
  unfold Obligations.CipherIsSelfInverse
  intro key msg s hne
  have htbl := sourceSchedule_eq hne
  set tbl := ksaTable fun k => key.getD (k % key.length) 0#8
  obtain ⟨t, ht, hts, htg, htk⟩ := hostCipher_of_sourceSchedule htbl msg s
  set out := List.zipWith (· ^^^ ·) msg (sourceKeystream tbl msg.length) with hout
  have hks : msg.length = (sourceKeystream tbl msg.length).length := (sourceBytes_length _ _).symm
  have hlen : out.length = msg.length := by rw [hout, List.length_zipWith, ← hks, Nat.min_self]
  have hback : List.zipWith (· ^^^ ·) out (sourceKeystream tbl out.length) = msg := by
    rw [hlen]
    exact zipWith_xor_zipWith_xor hks
  refine ⟨out, t, ht, fun u => ?_, ?_, ?_⟩
  · obtain ⟨v, hv, -⟩ := hostCipher_of_sourceSchedule htbl out u
    rw [hback] at hv
    exact ⟨v, hv⟩
  · obtain ⟨v, hv, -⟩ := hostBytes_xor out (s := withResponse .written (startKeystream tbl t)) rfl
    exact ⟨_, v, hostCommand_ksa_of_heldKey htbl htk, hv.trans (congrArg (fun bs => some (bs, v)) hback)⟩
  · obtain ⟨v, hv, -⟩ := hostBytes_xor out hts
    refine ⟨tbl, v, htbl, ?_⟩
    rw [sourceKeystream, Nat.two_mul, sourceBytes_drop, hv, hlen, htg]

/-! ### The empty key (42_combine.md R149) -/

/-- However many XORs fail, they leave what one leaves. -/
theorem hostCommands_xor_of_unscheduled (ms : List Byte) {s : State} (hs : s.svalid = false) :
    hostCommands (ms.map .xor) s = some (if ms = [] then s else withResponse .written (raiseCmdError .sequence s)) := by
  induction ms generalizing s with
  | nil => rfl
  | cons m ms ih =>
    have hraised : (withResponse .written (raiseCmdError .sequence s)).svalid = false := hs
    rw [List.map_cons, hostCommands_cons (exec_xor_of_unscheduled m hs), ih hraised, if_neg (List.cons_ne_nil m ms)]
    split <;> rfl

/-- Settles O42, by `hostCommands_scheduleCommands_nil`, `hostCipher_nil` and `hostCommands_xor_of_unscheduled`. -/
theorem emptyKeyNeverYieldsAByte : Obligations.EmptyKeyNeverYieldsAByte := by
  unfold Obligations.EmptyKeyNeverYieldsAByte
  intro msg s
  refine ⟨⟨_, hostCommands_scheduleCommands_nil s, rfl, rfl⟩, _, hostCipher_nil msg s, rfl, fun ms => ?_⟩
  refine ⟨_, hostCommands_xor_of_unscheduled ms rfl, ?_⟩
  by_cases hms : ms = []
  · simp [hms, keylessState]
  · simp [hms, keylessState]

end Sys2Proof.Machine
end

section
/-! SUPPORT. The control commands (43_control.md R160 to R162): CLR against reset, and what NOP and CLR write and leave. No
later answer depends on what the host still had pending or was last told, so after CLR, which leaves both, `ObsEq` with
reset on the rest of the state is enough. -/

namespace Sys2Proof.Machine

/-! ### The host's side of the state (10_state.md R20; logs 3, 4) -/

/-- The state with other events still to come and another answer given last. -/
def withHostSide (rest : List HostEvent) (r : Option Response) (s : State) : State :=
  { s with pending := rest, response := r }

section

variable {s t : State} (rest : List HostEvent) (r : Option Response)

/-- No command reads or writes the host's side. -/
theorem exec_withHostSide {i : Instr} (h : exec i s = .next t) :
    exec i (withHostSide rest r s) = .next (withHostSide rest r t) := by
  cases exec_cases h with
  | nop => exact exec_nop _
  | clr => exact exec_clr _
  | keybRoom b hk => exact exec_keyb_of_room b hk
  | keybFull b hk => exact exec_keyb_of_full b hk
  | ksaEmpty hk => exact exec_ksa_of_empty hk
  | ksaKey hk => exact exec_ksa_of_key hk
  | generatorStep _ hi hs =>
    obtain rfl | ⟨m, rfl⟩ := (usesGenerator_iff i).mp hi
    · exact exec_gen_of_scheduled hs
    · exact exec_xor_of_scheduled m hs
  | generatorRefused _ hi hs =>
    obtain rfl | ⟨m, rfl⟩ := (usesGenerator_iff i).mp hi
    · exact exec_gen_of_unscheduled hs
    · exact exec_xor_of_unscheduled m hs

/-- No register shows the host's side. -/
theorem readRegister_withHostSide (reg : ReadReg) (s : State) :
    readRegister reg (withHostSide rest r s) = readRegister reg s :=
  readRegister_unshown reg s.key rest r s.resets s

/-- An event leaves the list of coming events alone, and its answer replaces the last one. -/
theorem serveEvent_withHostSide {e : HostEvent} (h : serveEvent e s = .next t) :
    serveEvent e (withHostSide rest r s) = .next (withHostSide rest t.response t) := by
  obtain ⟨u, hu, hcase⟩ := serveEvent_cases e s
  cases h.symm.trans hu
  cases hcase with
  | command off size w i u hsel hdec hexec =>
    simp only [serveEvent, serveAccess, hsel, performWord, hdec, exec_withHostSide rest r hexec, answerWrite]
    rfl
  | illegal off size w err hsel hdec =>
    simp only [serveEvent, serveAccess, hsel, performWord, hdec]
    rfl
  | writeRefused off size w c hsel | readRefused off size c hsel =>
    simp only [serveEvent, serveAccess, hsel]
    rfl
  | read off size reg hsel =>
    simp only [serveEvent, serveAccess, hsel, readRegister_withHostSide]
    rfl
  | reset _ he => exact serveEvent_of_isReset he _

end

/-! ### What the port answers to a list of events -/

/-- The port serves the listed event at once, in the state as it is. -/
theorem portTrace_cons {s t : State} {e : HostEvent} (h : serveEvent e s = .next t) (es : List HostEvent) :
    portTrace (e :: es) s = (portTrace es t).map fun rs => t.response :: rs := by
  have hstep : step (withPending (e :: s.pending) s) = .next t := (step_of_pending rfl).trans h
  simp only [portTrace, hstep]

/-- The answers do not depend on the host's side. -/
theorem portTrace_withHostSide (es : List HostEvent) (rest : List HostEvent) (r : Option Response) (s : State) :
    portTrace es (withHostSide rest r s) = portTrace es s := by
  induction es generalizing s r with
  | nil => rfl
  | cons e es ih =>
    obtain ⟨t, ht, -⟩ := serveEvent_cases e s
    rw [portTrace_cons (serveEvent_withHostSide rest r ht), portTrace_cons ht, ih]
    rfl

/-- Observationally equal states give the same answers for ever, since every event keeps them so. -/
theorem ObsEq.portTrace_eq {s t : State} (h : ObsEq s t) (es : List HostEvent) : portTrace es s = portTrace es t := by
  induction es generalizing s t with
  | nil => rfl
  | cons e es ih =>
    obtain ⟨s', t', hs', ht', h'⟩ := h.serveEvent_next e
    rw [portTrace_cons hs', portTrace_cons ht', ih h', h'.response]

/-! ### CLR against reset (43_control.md R162) -/

/-- CLR leaves what reset leaves but for S, K and what the host does and was told. -/
theorem obsEq_clearState_reset (s : State) : ObsEq (withHostSide [] none (clearState s)) State.reset := by
  constructor <;> simp [withHostSide, State.reset]

theorem readRegister_reset (r : ReadReg) : readRegister r State.reset = 0#32 := by
  obtain ⟨-, -, -, -, -, -, -, -, -, -, hread⟩ := resetValues
  exact hread r

theorem readRegister_clearState (r : ReadReg) (s : State) : readRegister r (clearState s) = 0#32 :=
  calc readRegister r (clearState s)
    _ = readRegister r (withHostSide [] none (clearState s)) := (readRegister_withHostSide [] none r _).symm
    _ = readRegister r State.reset := ((obsEq_clearState_reset s).readRegister_eq r).symm
    _ = 0#32 := readRegister_reset r

/-- Settles O23: past the host's side, which no answer depends on (`portTrace_withHostSide`), the cleared state is
observationally equal to reset. -/
theorem clrIsIndistinguishableFromReset : Obligations.ClrIsIndistinguishableFromReset := by
  unfold Obligations.ClrIsIndistinguishableFromReset
  refine fun s => ⟨clearState s, exec_clr s, fun r => ?_, fun es => ?_⟩
  · rw [readRegister_clearState, readRegister_reset]
  · rw [← portTrace_withHostSide es [] none (clearState s)]
    exact (obsEq_clearState_reset s).portTrace_eq es

/-! ### NOP and CLR by themselves (43_control.md R160, R161) -/

/-- Settles O21, by `exec_nop`. -/
theorem nopClearsDvalid : Obligations.NopClearsDvalid := by
  unfold Obligations.NopClearsDvalid
  exact ⟨rfl, exec_nop⟩

/-- Settles O22, by `exec_clr` and, for the registers, `readRegister_clearState`. -/
theorem clrClearsAllButTheArrays : Obligations.ClrClearsAllButTheArrays := by
  unfold Obligations.ClrClearsAllButTheArrays
  exact ⟨rfl, fun s => ⟨clearState s, exec_clr s, rfl, readRegister_clearState .status s, readRegister_clearState .dout s,
    readRegister_clearState .prgaIdx s⟩⟩

/-- Settles O55: the next states are those of `exec_nop` and `exec_clr`, and the field lemmas of the two updates say the rest. -/
theorem frameOfNopAndClr : Obligations.FrameOfNopAndClr := by
  unfold Obligations.FrameOfNopAndClr
  constructor
  · intro s t h
    cases (exec_nop s).symm.trans h
    simp
  · intro s t h
    cases (exec_clr s).symm.trans h
    simp

end Sys2Proof.Machine
end

section
/-! SUPPORT. Errors (60_exceptions.md): when GEN and XOR raise the sequence error (R183), what an illegal word does (R184),
that a recorded error blocks nothing (R188), and the order of the checks on a write (R189). -/

namespace Sys2Proof.Machine

/-! ### The sequence error (R183) -/

/-- With no S-box scheduled, GEN and every XOR record the sequence error alike. -/
theorem exec_generator_of_unscheduled {i : Instr} (hi : usesGenerator i = true) {s : State} (hs : s.svalid = false) :
    exec i s = .next (raiseCmdError .sequence s) := by
  obtain rfl | ⟨m, rfl⟩ := (usesGenerator_iff i).mp hi
  · exact exec_gen_of_unscheduled hs
  · exact exec_xor_of_unscheduled m hs

/-- Settles O43, by the two outcomes that GEN and XOR share. -/
theorem sequenceErrorExactlyWhenUnscheduled : Obligations.SequenceErrorExactlyWhenUnscheduled := by
  unfold Obligations.SequenceErrorExactlyWhenUnscheduled
  exact fun s i hi => ⟨exec_generator_of_unscheduled hi, fun hs => ⟨_, exec_generator_of_scheduled hi hs, rfl, rfl⟩⟩

/-! ### Recorded errors block nothing (R188) -/

/-- The state with the sticky flags of `u`, and with `u`'s surroundings. -/
def withStickyOf (u s : State) : State :=
  { u with
    sbox := s.sbox, key := s.key, keylen := s.keylen, i := s.i, j := s.j, dout := s.dout, svalid := s.svalid,
    dvalid := s.dvalid }

theorem sameButStickyFlags_withStickyOf (u s : State) : SameButStickyFlags s (withStickyOf u s) := by
  simp [SameButStickyFlags, withStickyOf]

theorem SameButStickyFlags.eq_withStickyOf {s t : State} (h : SameButStickyFlags s t) : t = withStickyOf t s := by
  obtain ⟨hsbox, hkey, hkeylen, hi, hj, hdout, hsvalid, hdvalid⟩ := h
  rw [withStickyOf, ← hsbox, ← hkey, ← hkeylen, ← hi, ← hj, ← hdout, ← hsvalid, ← hdvalid]

/-- A command decides by KEYLEN and SVALID only, so under other sticky flags it takes the same one of its eight cases, and
writes the flags by the same update. -/
theorem exec_withStickyOf (u : State) {s t : State} {i : Instr} (h : exec i s = .next t) :
    ∃ v, exec i (withStickyOf u s) = .next (withStickyOf v t) := by
  cases exec_cases h with
  | nop => exact ⟨u, exec_nop _⟩
  | clr => exact ⟨clearState u, exec_clr _⟩
  | keybRoom b hk => exact ⟨u, exec_keyb_of_room b hk⟩
  | keybFull b hk => exact ⟨setOverflow u, exec_keyb_of_full b hk⟩
  | ksaEmpty hk => exact ⟨raiseCmdError .invalidKey u, exec_ksa_of_empty hk⟩
  | ksaKey hk => exact ⟨u, exec_ksa_of_key hk⟩
  | generatorStep _ hi hs => exact ⟨u, exec_generator_of_scheduled hi hs⟩
  | generatorRefused _ hi hs => exact ⟨raiseCmdError .sequence u, exec_generator_of_unscheduled hi hs⟩

/-- Settles O48: the second state is the first with other sticky flags, and `exec_withStickyOf` runs the command there. -/
theorem errorsDoNotBlockCommands : Obligations.ErrorsDoNotBlockCommands := by
  unfold Obligations.ErrorsDoNotBlockCommands
  intro s t i h
  obtain ⟨s', hs'⟩ := exec_answers_next i s
  obtain ⟨v, hv⟩ := exec_withStickyOf t hs'
  rw [← h.eq_withStickyOf] at hv
  exact ⟨s', withStickyOf v s', hs', hv, sameButStickyFlags_withStickyOf v s'⟩

/-! ### Writes, in the order of their checks (R184, R189) -/

/-- A word write to CMD of an illegal word records the illegal command, and the port answers the write. -/
theorem serveEvent_of_illegal {w : Word} {e : DecodeError} (hdec : decode w = .error e) (s : State) :
    serveEvent (.access (.write cmdOffset .word w)) s =
      .next (withResponse .written (raiseCmdError .illegalCommand s)) := by
  have hsel : selectWrite cmdOffset .word = .ok () := rfl
  simp only [serveEvent, serveAccess, hsel, performWord, hdec, answerWrite]

/-- The port accepts a write only as a word write to CMD (20_memory.md R52 to R54). -/
theorem eq_cmdWrite_of_not_refused {off : Offset} {size : Size} {w : Word} (h : ¬ Refused (.write off size w)) :
    Access.write off size w = .write cmdOffset .word w := by
  obtain ⟨rfl, hoff⟩ := (selectWrite_ok_iff off size).mp ((not_refused_write_iff off size w).mp h)
  obtain rfl : off = cmdOffset := BitVec.eq_of_toNat_eq hoff
  rfl

/-- Settles O8, by `serveEvent_of_illegal`. -/
theorem illegalWordRaisesOnlyCmderr : Obligations.IllegalWordRaisesOnlyCmderr := by
  unfold Obligations.IllegalWordRaisesOnlyCmderr
  exact fun s rest w e hp hdec => (step_of_pending hp).trans (serveEvent_of_illegal hdec _)

/-- Settles O9, by `step_of_idle`. -/
theorem nothingPendingNothingChanges : Obligations.NothingPendingNothingChanges := by
  unfold Obligations.NothingPendingNothingChanges
  exact fun s => step_of_idle

/-- Settles O49: `busErrorExactlyWhenRefused` for a refused write; an accepted one is a word write to CMD, so
`illegalWordRaisesOnlyCmderr` for an illegal word and `stepRunsTheWrittenCommand`, with the flag lemmas of `ExecCase`, for a
command. -/
theorem busCheckThenDecodeThenCommand : Obligations.BusCheckThenDecodeThenCommand := by
  unfold Obligations.BusCheckThenDecodeThenCommand
  intro s off size w rest hp
  refine ⟨(busErrorExactlyWhenRefused s _ rest hp).1, fun hacc hill => ?_, fun hacc i hdec => ?_⟩
  · rw [eq_cmdWrite_of_not_refused hacc] at hp
    obtain ⟨e, he⟩ := (decode_eq_error_iff w).mpr fun ⟨i, hi⟩ => hill i hi
    exact illegalWordRaisesOnlyCmderr s rest w e hp he
  · rw [eq_cmdWrite_of_not_refused hacc] at hp
    obtain ⟨t, hexec, hstep⟩ := stepRunsTheWrittenCommand.1 s rest w i hp hdec
    have hcase := exec_cases hexec
    exact ⟨_, hstep, rfl, fun h => (hcase.cmderr_iff.mp h).2, fun h => (hcase.keyerr_iff.mp h).2,
      fun h => (hcase.seqerr_iff.mp h).2⟩

end Sys2Proof.Machine
end

section
/-! SUPPORT. Reset and completion (70_reset_and_hazards.md): a reset during a run leaves what `State.reset` is, as far as the
port can observe it (R210), and no state is without a next state (R220). -/

namespace Sys2Proof.Machine

/-- A reset during a run leaves the values of 10_state.md R41: with no key held and nothing scheduled, the drawn S and K do
not show. The host's coming events stay. -/
theorem obsEq_reset_releaseReset (s : State) : ObsEq { State.reset with pending := s.pending } (releaseReset s) := by
  constructor <;> simp [State.reset]

/-- Settles O13: either reset event is served as `releaseReset`, in the state without the event, and
`obsEq_reset_releaseReset` compares that with reset. -/
theorem resetAtAnyTimeGivesTheResetState : Obligations.ResetAtAnyTimeGivesTheResetState := by
  unfold Obligations.ResetAtAnyTimeGivesTheResetState
  intro s e rest hp he
  have hserve := serveEvent_of_isReset ((isReset_iff e).mpr he) (withPending rest s)
  exact ⟨_, (step_of_pending hp).trans hserve, obsEq_reset_releaseReset (withPending rest s)⟩

/-- Settles O10, by `step_answers_next`: an idle step keeps the state, and every event completes in a case of `StepCase`. -/
theorem everyStepCompletes : Obligations.EveryStepCompletes := by
  unfold Obligations.EveryStepCompletes
  exact step_answers_next

end Sys2Proof.Machine
end
